-- ==== Sys2Proof/Word.lean ====
section
/-! DEFINITION. The widths of 00_scope.md R6, the word types of the tasbot replay core, and the Frame they make up. -/

namespace Sys2Proof

/-- A byte: 8 bits (00_scope.md, section 6). -/
abbrev Byte := BitVec 8

/-- A 16-bit value of a command payload, a tick or a window value (20_memory.md R63). -/
abbrev Word := BitVec 16

/-- Width in bits of `write_index` and `read_index` (00_scope.md R6). -/
abbrev Config.IDXW : Nat := 16

/-- Width in bits of a channel word (00_scope.md R6). -/
abbrev Config.CHW : Nat := 16

/-- Channel words per Frame (00_scope.md R6). -/
abbrev Config.NCH : Nat := 4

/-- A ring index (10_state.md R22). -/
abbrev Index := BitVec Config.IDXW

/-- A channel word (10_state.md R21). -/
abbrev Channel := BitVec Config.CHW

/-- A Frame `<c0, c1, c2, c3>`: exactly four channel words; the word of port `P` (1 or 2) and
line `L` (0 or 1) is `ch[2*(P-1) + L]` (10_state.md R21). -/
structure Frame where
  ch0 : Channel
  ch1 : Channel
  ch2 : Channel
  ch3 : Channel
  deriving DecidableEq, Repr, Inhabited

/-- The channel words of a Frame by number: `ch[0]` to `ch[NCH-1]` (10_state.md R21). -/
def Frame.words (f : Frame) : Vector Channel Config.NCH := #v[f.ch0, f.ch1, f.ch2, f.ch3]

end Sys2Proof
end

