-- ==== Sys2Proof/Config.lean ====
section
/-! DEFINITION. The constants and parameters of 00_scope.md R6 (the widths stand in Word.lean), and the free values of 93_implementation_defined.md U1, U2. -/

namespace Sys2Proof

/-- Capacity in bytes of the command buffer (00_scope.md R6). -/
abbrev Config.CBUF_CAP : Nat := 64

/-- Flow-control threshold: a request is due when `free_space() > LOW_WATER` (00_scope.md R6). -/
abbrev Config.LOW_WATER : Nat := 65

/-- A Load performs `LOAD_FACTOR * blocksize` round trips (00_scope.md R6). -/
abbrev Config.LOAD_FACTOR : Nat := 4

/-- The neutral channel word (00_scope.md R6). -/
abbrev Config.NEUTRAL : Channel := 0xFFFF#16

/-- The neutral Frame: all four words neutral (10_state.md R29, R47). -/
abbrev Config.NEUTRAL_FRAME : Frame := ⟨Config.NEUTRAL, Config.NEUTRAL, Config.NEUTRAL, Config.NEUTRAL⟩

/-- Reset value of each port's window period (00_scope.md R6). -/
abbrev Config.DEF_WIN_PERIOD : Word := 2500#16

/-- Reset value of each port's clock divisor (00_scope.md R6). -/
abbrev Config.DEF_CLK_DIV : Byte := 2#8

/-- Reset value of the autolatch divisor (00_scope.md R6). -/
abbrev Config.DEF_AL_DIV : Byte := 16#8

/-- Reset value of the autolatch bit width (10_state.md R36, R47). -/
abbrev Config.DEF_AL_WIDTH : Byte := 16#8

/-- Response byte "request more data" (00_scope.md R6, 30_encoding.md R108). -/
abbrev Config.REQ : Byte := 0x0F#8

/-- Response byte "command-mode acknowledge" (00_scope.md R6, 30_encoding.md R108). -/
abbrev Config.ACK : Byte := 0x0D#8

/-- Response byte "ping reply" (00_scope.md R6, 30_encoding.md R108). -/
abbrev Config.PONG : Byte := 0xFF#8

/-- The two OPEN parameters of the block, fixed at build time (00_scope.md R6, R7; decisions D1, D19).
`CAP` is a power of two with `128 <= CAP <= 32768`, so it is `128 * 2^capExp` with `capExp` from 0 to 8
and no illegal capacity can be written down (log 2). -/
structure Config.Params where
  capExp : Fin 9
  noDataClearOnPush : Bool
  deriving DecidableEq, Repr

/-- `CAP`, the number of ring slots. -/
def Config.Params.cap (p : Config.Params) : Nat := 128 * 2 ^ p.capExp.val

/-- The spec's defaults: `CAP = 128`, `NO_DATA_CLEAR_ON_PUSH` false (decisions D1, D19). -/
def Config.Params.default : Config.Params := { capExp := 0, noDataClearOnPush := false }

/-- FREE VALUE (log 3): the Frame that ring slot `slot` holds after the `n`-th power-up while nothing has
written it (93_implementation_defined.md U1: "Do not assume zero, and do not assume `0xFFFF`"). -/
opaque Config.ringPowerUp (n slot : Nat) : Frame

/-- FREE VALUE (log 4): the byte that command buffer byte `i` holds after the `n`-th power-up while nothing
has written it (93_implementation_defined.md U2). -/
opaque Config.cbufPowerUp (n i : Nat) : Byte

end Sys2Proof
end

