-- ==== Sys2Proof/Syntax.lean ====
section
/-! DEFINITION. The commands: one constructor of `Instr` per row of spec/opcode_table.json (30_encoding.md R95). -/

namespace Sys2Proof

/-- A command with its operands as the frame carries them (30_encoding.md R91, R93, R97).

`load` keeps its four raw bytes: whether they are legal is tested by its meaning, after the mode test
(60_exceptions.md R250(c)). `append` keeps the payload bytes `b[1 ..]`: how they split into blocks depends on
the layout in the state (43_cmd_data.md R194). -/
inductive Instr where
  | reset
  | load (ports databits lines useTimer : Byte)
  | append (payload : List Byte)
  | winper1 (v16 : Word)
  | winoff1 (v16 : Word)
  | tmroff
  | tmron
  | clkdiv1 (v8 : Byte)
  | clkdiv2 (v8 : Byte)
  | alcfg (en sel : Byte)
  | alwidth (v8 : Byte)
  | arm (v16 : Word)
  | resync
  | ping
  deriving DecidableEq, Repr

/-- The 14 opcodes by name (30_encoding.md R95). -/
inductive Op where
  | reset | load | append | winper1 | winoff1 | tmroff | tmron
  | clkdiv1 | clkdiv2 | alcfg | alwidth | arm | resync | ping
  deriving DecidableEq, Repr

/-- The six frame formats (30_encoding.md R91). -/
inductive Format where
  | f0 | f8 | f16 | f88 | fload | fbatch
  deriving DecidableEq, Repr

/-- What the decoder says of a frame: the command it carries, or one of the two named rejections
(60_exceptions.md R240: E1 `UnknownOpcode`; E2 `MalformedPayload` for a frame shorter than its format). -/
inductive Decoded where
  | instr (i : Instr)
  | unknownOpcode
  | tooShort
  deriving DecidableEq, Repr

/-- The opcode a command is sent with. -/
def Instr.op : Instr → Op
  | .reset => .reset
  | .load _ _ _ _ => .load
  | .append _ => .append
  | .winper1 _ => .winper1
  | .winoff1 _ => .winoff1
  | .tmroff => .tmroff
  | .tmron => .tmron
  | .clkdiv1 _ => .clkdiv1
  | .clkdiv2 _ => .clkdiv2
  | .alcfg _ _ => .alcfg
  | .alwidth _ => .alwidth
  | .arm _ => .arm
  | .resync => .resync
  | .ping => .ping

end Sys2Proof
end

