-- ==== Sys2Proof/WellFormed.lean ====
section
/-! DEFINITION. Which commands fit in a frame, and which frames the interface accepts. -/

namespace Sys2Proof

/-- A byte string the Transport may hand over: at most 64 bytes (30_encoding.md R90, 42_engine_loop.md R170). -/
def frameWf (b : List Byte) : Bool := b.length ≤ Config.CBUF_CAP

/-- A command that some frame can carry. Every operand of a fixed format has the width its constructor
gives it; a batch has at most 63 payload bytes beside its opcode (20_memory.md R66). -/
def Instr.wf : Instr → Bool
  | .append payload => payload.length < Config.CBUF_CAP
  | .reset | .load _ _ _ _ | .winper1 _ | .winoff1 _ | .tmroff | .tmron | .clkdiv1 _ | .clkdiv2 _
  | .alcfg _ _ | .alwidth _ | .arm _ | .resync | .ping => true

end Sys2Proof
end

