-- ==== Sys2Proof/Decode.lean ====
section
/-! DEFINITION. The command-frame decoder and, after it, the encoder (30_encoding.md R90 to R101). -/

namespace Sys2Proof

/-- `{hi, lo}`: a 16-bit value from two bytes, big-endian (20_memory.md R63). -/
def be16 (hi lo : Byte) : Word := hi ++ lo

/-- The byte that goes first on the wire: bits 15 to 8 (20_memory.md R63). -/
def hiByte (v : Word) : Byte := v.extractLsb' 8 8

/-- The byte that goes second on the wire: bits 7 to 0 (20_memory.md R63). -/
def loByte (v : Word) : Byte := v.extractLsb' 0 8

/-- The opcode byte of each command (30_encoding.md R95). -/
def Op.code : Op → Byte
  | .reset => 0x00#8
  | .load => 0x01#8
  | .append => 0x0F#8
  | .winper1 => 0xA0#8
  | .winoff1 => 0xA1#8
  | .tmroff => 0xA2#8
  | .tmron => 0xA3#8
  | .clkdiv1 => 0xA4#8
  | .clkdiv2 => 0xB4#8
  | .alcfg => 0xC0#8
  | .alwidth => 0xC1#8
  | .arm => 0xD0#8
  | .resync => 0xD1#8
  | .ping => 0xFF#8

/-- The frame format of each command (30_encoding.md R91, R95). -/
def Op.format : Op → Format
  | .reset | .tmroff | .tmron | .resync | .ping => .f0
  | .clkdiv1 | .clkdiv2 | .alwidth => .f8
  | .winper1 | .winoff1 | .arm => .f16
  | .alcfg => .f88
  | .load => .fload
  | .append => .fbatch

/-- The minimum `cnt` of each format (30_encoding.md R94). -/
def Format.minCnt : Format → Nat
  | .f0 => 1
  | .f8 => 2
  | .f16 => 3
  | .f88 => 3
  | .fload => 5
  | .fbatch => 1

/-- The 14 rows of the opcode map, in the order of 30_encoding.md R95. -/
def Op.all : List Op :=
  [.reset, .load, .append, .winper1, .winoff1, .tmroff, .tmron,
   .clkdiv1, .clkdiv2, .alcfg, .alwidth, .arm, .resync, .ping]

/-- The decoder's opcode test: a full 8-bit compare against the 14 values (30_encoding.md R95, R96). -/
def Op.ofByte (b : Byte) : Option Op := Op.all.find? fun o => o.code == b

/-- The operands of opcode `o` from the bytes after it (30_encoding.md R93, R97). Bytes beyond the last field of
a fixed format are ignored, a frame shorter than its format is rejected (R94). -/
def decodeOperands (o : Op) (args : List Byte) : Decoded :=
  match o, args with
  | .reset, _ => .instr .reset
  | .load, ports :: databits :: lines :: useTimer :: _ => .instr (.load ports databits lines useTimer)
  | .load, _ => .tooShort
  | .append, payload => .instr (.append payload)
  | .winper1, hi :: lo :: _ => .instr (.winper1 (be16 hi lo))
  | .winper1, _ => .tooShort
  | .winoff1, hi :: lo :: _ => .instr (.winoff1 (be16 hi lo))
  | .winoff1, _ => .tooShort
  | .tmroff, _ => .instr .tmroff
  | .tmron, _ => .instr .tmron
  | .clkdiv1, v8 :: _ => .instr (.clkdiv1 v8)
  | .clkdiv1, _ => .tooShort
  | .clkdiv2, v8 :: _ => .instr (.clkdiv2 v8)
  | .clkdiv2, _ => .tooShort
  | .alcfg, en :: sel :: _ => .instr (.alcfg en sel)
  | .alcfg, _ => .tooShort
  | .alwidth, v8 :: _ => .instr (.alwidth v8)
  | .alwidth, _ => .tooShort
  | .arm, hi :: lo :: _ => .instr (.arm (be16 hi lo))
  | .arm, _ => .tooShort
  | .resync, _ => .instr .resync
  | .ping, _ => .instr .ping

/-- The decoder, total on any bytes: byte 0 selects the command (30_encoding.md R90, R95, R96), the empty frame has
no opcode (R101), then the length check of the opcode's format (R94; order: 60_exceptions.md R250(c)). -/
def decode : List Byte → Decoded
  | [] => .unknownOpcode
  | b :: args =>
    match Op.ofByte b with
    | some o => decodeOperands o args
    | none => .unknownOpcode

/-- The bytes after the opcode (30_encoding.md R93, R109). -/
def Instr.operandBytes : Instr → List Byte
  | .reset | .tmroff | .tmron | .resync | .ping => []
  | .load ports databits lines useTimer => [ports, databits, lines, useTimer]
  | .append payload => payload
  | .winper1 v | .winoff1 v | .arm v => [hiByte v, loByte v]
  | .clkdiv1 v | .clkdiv2 v | .alwidth v => [v]
  | .alcfg en sel => [en, sel]

/-- The encoder: the shortest frame that carries the command (30_encoding.md R93, R109). -/
def encode (i : Instr) : List Byte := i.op.code :: i.operandBytes

/-- Byte `k` of an instruction word numbered as spec/opcode_table.json numbers it: frame byte 0 in bits 7 to 0,
frame byte 1 in bits 15 to 8, and so on. -/
def wordByte (w k : Nat) : Byte := BitVec.ofNat 8 (w >>> (8 * k))

/-- The frame that an opcode-table word of `nbits` bits stands for: its bytes in wire order, then zero bytes up to
the minimum length of its opcode's format, so that operand bytes the table gives no bits are zero (log 12). -/
def tableFrame (nbits w : Nat) : List Byte :=
  let bytes := (List.range (nbits / 8)).map (wordByte w)
  match bytes with
  | [] => []
  | b :: _ =>
    match Op.ofByte b with
    | some o => bytes ++ List.replicate (o.format.minCnt - bytes.length) 0#8
    | none => bytes

/-- The instruction the decoder reads from an opcode-table word. -/
def decodeTableWord (nbits w : Nat) : Option Instr :=
  match decode (tableFrame nbits w) with
  | .instr i => some i
  | .unknownOpcode => none
  | .tooShort => none

end Sys2Proof
end

