-- ==== Sys2Proof/Machine/State.lean ====
section
/-! DEFINITION. The state of the core (10_state.md R20 to R48), the Transport's side of its interface
(60_exceptions.md R256), the events that act on it (00_scope.md R9), and the state after power-up (R47, R270). -/

namespace Sys2Proof.Machine

/-- The Engine's sequencer (10_state.md R24). -/
inductive Phase where
  | fc | fcTx | ack | ackTx | cmd | pingTx | loadTx | loadRx
  deriving DecidableEq, Repr

/-- The Playback Mode (10_state.md R27). -/
inductive Mode where
  | idle | loading | playing | commandMode
  deriving DecidableEq, Repr

/-- The conditions E1 to E5 of 60_exceptions.md R240. E6 `Disconnected` is a level, not an event (R246):
`State.disconnected`. -/
inductive Condition where
  | unknownOpcode
  | malformedPayload
  | loadNotIdle
  | overrun
  | underrun
  deriving DecidableEq, Repr

/-- What may happen next (00_scope.md R5, R9; 70_reset_and_hazards.md R270; 93_implementation_defined.md U13, U14). -/
inductive Event where
  /-- One Engine step. -/
  | engine
  /-- The Output Stage raises a latch event. -/
  | latch
  /-- Power-up, or the hardware reset input. -/
  | powerUp
  /-- The Host sends a frame. -/
  | hostSend (frame : List Byte)
  /-- The Transport sets the level `cfg`. -/
  | setCfg (level : Bool)
  /-- The Transport sets the level `cfg_changed`. -/
  | setCfgChanged (level : Bool)
  /-- The Transport sets the level `tx_ready`. -/
  | setTxReady (level : Bool)
  /-- The Transport keeps `rx_valid` low, or stops doing so. Offered frames are not withdrawn while the link is configured. -/
  | setRxHold (level : Bool)
  /-- The Transport, not configured, loses the frames that wait in it. -/
  | dropFrames
  deriving DecidableEq, Repr

/-- The faults: none. The block has no trap and no abort (60_exceptions.md R240, R251): nothing raises a fault, and a
run can end only in a refusal. -/
inductive Fault where
  deriving DecidableEq, Repr

/-- Why the model has no next state. -/
inductive Refusal where
  /-- Raised by `exec`'s arm of a command that has no meaning yet. Safe: the run stops. No arm does so. -/
  | notModelled (mnemonic : String)
  /-- Raised when the Host sends, or the Engine would fetch, a frame of more than 64 bytes. Safe: the spec refuses it at
  the interface (93_implementation_defined.md U4, 42_engine_loop.md R170), since the source does not say what happens. -/
  | frameTooLong
  deriving DecidableEq, Repr

/-- Everything the spec gives the machine, the Transport's side of the interface, and the model's own fields. -/
@[ext]
structure State where
  /-- MODEL's own: the block's two build parameters; no step writes them (00_scope.md R6; log 2). -/
  params : Config.Params
  /-- Ring storage: (slot, Frame) pairs, slots strictly rising and below `CAP`; an unlisted slot has not been written
  since power-up (10_state.md R23, 20_memory.md R60; log 3). -/
  ring : List (Nat × Frame)
  /-- Producer index, `IDXW` bits, free-running (10_state.md R22). -/
  write_index : Index
  /-- Consumer index, `IDXW` bits, free-running (10_state.md R22). -/
  read_index : Index
  /-- The sequencer (10_state.md R24). -/
  phase : Phase
  /-- Load round trips still to do, 6 bits (10_state.md R25). -/
  load_trips : BitVec 6
  /-- Command buffer: (index, byte) pairs, indices strictly rising and below 64; an unlisted byte has not been written
  since power-up (10_state.md R26, 20_memory.md R61; log 4). -/
  cbuf : List Host.Cell
  /-- Number of valid bytes in `cbuf`, 7 bits, 0 to 64 (10_state.md R26). -/
  cnt : BitVec 7
  /-- The Playback Mode (10_state.md R27). -/
  mode : Mode
  /-- The `current_frame()` output (10_state.md R29). -/
  cur_frame : Frame
  /-- `win_period[1]` (10_state.md R31). -/
  win_period1 : Word
  /-- `win_period[2]` (10_state.md R31). -/
  win_period2 : Word
  /-- `win_offset[1]` (10_state.md R32). -/
  win_offset1 : Word
  /-- `win_offset[2]` (10_state.md R32). -/
  win_offset2 : Word
  /-- `clk_div[1]` (10_state.md R33). -/
  clk_div1 : Byte
  /-- `clk_div[2]` (10_state.md R33). -/
  clk_div2 : Byte
  /-- Autolatch enable flag (10_state.md R34). -/
  al_en : Bool
  /-- Autolatch clock divisor (10_state.md R35). -/
  al_div : Byte
  /-- Autolatch recorded bit width (10_state.md R36). -/
  al_width : Byte
  /-- Autolatch clock source select (10_state.md R37). -/
  al_clksel : Byte
  /-- Timer-driven windowing enabled (10_state.md R38). -/
  use_timer : Bool
  /-- Timer state ready (10_state.md R38). -/
  timer_ready : Bool
  /-- Decode layout: physical ports, 2 bits (10_state.md R39). -/
  ports : BitVec 2
  /-- Decode layout: lines per port, 2 bits (10_state.md R39). -/
  lines : BitVec 2
  /-- Decode layout: bytes per channel word, 2 bits (10_state.md R39). -/
  databits : BitVec 2
  /-- Decode layout: bytes per block, 4 bits (10_state.md R39). -/
  blocksize : BitVec 4
  /-- The configured start tick (10_state.md R40). -/
  cmd_mode_start : Word
  /-- The arm of the CommandMode entry (10_state.md R40). -/
  cmd_armed : Bool
  /-- One outstanding flow-control request (10_state.md R41). -/
  fc_outstanding : Bool
  /-- A command-mode acknowledgement is pending (10_state.md R42). -/
  ack_pending : Bool
  /-- The no-data flag (10_state.md R43). -/
  no_data : Bool
  /-- Transport input `is_configured()` (60_exceptions.md R256). -/
  cfg : Bool
  /-- Transport input `configuration_changed()` (60_exceptions.md R256). -/
  cfg_changed : Bool
  /-- Transport input `is_ready_to_send()` (60_exceptions.md R256). -/
  tx_ready : Bool
  /-- The Transport keeps `rx_valid` low although a frame waits (42_engine_loop.md R161; log 6). -/
  rx_hold : Bool
  /-- The Transport's queue of frames, oldest first (10_state.md R45(c), 60_exceptions.md R256). -/
  rx_queue : List (List Byte)
  /-- The bytes the device has sent, oldest first (60_exceptions.md R256). -/
  tx_sent : List Byte
  /-- How often `Reinit()` has been called (42_engine_loop.md R168). -/
  reinits : Nat
  /-- MODEL's own: the events to come, oldest first; after them, Engine steps (00_scope.md R9; log 1). -/
  agenda : List Event
  /-- MODEL's own ghost record: the conditions raised, oldest first (60_exceptions.md R247; log 9). -/
  raised : List Condition
  /-- MODEL's own: how many power-ups there have been since the first; chooses the free values (log 5). -/
  power_ups : Nat
  deriving DecidableEq, Repr

/-- The state after power-up (10_state.md R47, 70_reset_and_hazards.md R270, R272). The Transport's inputs and the model's own
fields have the values of log 7 and log 2. -/
def State.reset : State where
  params := Config.Params.default
  ring := []
  write_index := 0
  read_index := 0
  phase := .fc
  load_trips := 0
  cbuf := []
  cnt := 0
  mode := .idle
  cur_frame := Config.NEUTRAL_FRAME
  win_period1 := Config.DEF_WIN_PERIOD
  win_period2 := Config.DEF_WIN_PERIOD
  win_offset1 := 0
  win_offset2 := 0
  clk_div1 := Config.DEF_CLK_DIV
  clk_div2 := Config.DEF_CLK_DIV
  al_en := false
  al_div := Config.DEF_AL_DIV
  al_width := Config.DEF_AL_WIDTH
  al_clksel := 0
  use_timer := false
  timer_ready := false
  ports := 0
  lines := 0
  databits := 0
  blocksize := 0
  cmd_mode_start := 0
  cmd_armed := false
  fc_outstanding := false
  ack_pending := false
  no_data := false
  cfg := false
  cfg_changed := false
  tx_ready := false
  rx_hold := false
  rx_queue := []
  tx_sent := []
  reinits := 0
  agenda := []
  raised := []
  power_ups := 0

end Sys2Proof.Machine
end

