-- ==== Sys2Proof/Machine/Ops.lean ====
section
/-! DEFINITION. The named operations over the two memories, the ring, the sequencer and the Transport. -/

namespace Sys2Proof.Machine

/-! ### Memory in canonical form -/

/-- What is listed at address `a`. -/
def Memory.lookup {α : Type} : List (Nat × α) → Nat → Option α
  | [], _ => none
  | (b, v) :: m, a => if b = a then some v else Memory.lookup m a

/-- Store `v` at address `a`, keeping the addresses strictly rising. -/
def Memory.write {α : Type} : List (Nat × α) → Nat → α → List (Nat × α)
  | [], a, v => [(a, v)]
  | (b, u) :: m, a, v =>
    if a < b then (a, v) :: (b, u) :: m
    else if a = b then (a, v) :: m
    else (b, u) :: Memory.write m a v

/-- Store the values of a list at consecutive addresses from `a`. -/
def Memory.writeList {α : Type} : List (Nat × α) → Nat → List α → List (Nat × α)
  | m, _, [] => m
  | m, a, v :: vs => Memory.writeList (Memory.write m a v) (a + 1) vs

/-- Addresses strictly rising, none below `lo`, all below `size`. -/
def Memory.wfFrom {α : Type} (size : Nat) : Nat → List (Nat × α) → Bool
  | _, [] => true
  | lo, (a, _) :: m => decide (lo ≤ a) && decide (a < size) && Memory.wfFrom size (a + 1) m

/-- The canonical form of a memory of `size` places: addresses strictly rising and below `size`. An unlisted place has
not been written since power-up and has a free value, so no listed value equals it (log 3, log 4). -/
def Memory.wf {α : Type} (size : Nat) (m : List (Nat × α)) : Bool := Memory.wfFrom size 0 m

/-! ### The command buffer -/

/-- `cbuf[i]` (00_scope.md, section 6). A byte nothing has written since power-up is a free value (U2). -/
def State.cbufRead (s : State) (i : Nat) : Byte :=
  (Memory.lookup s.cbuf i).getD (Config.cbufPowerUp s.power_ups i)

/-- The frame in the command buffer: `cbuf[0 .. cnt-1]` (30_encoding.md R90). -/
def State.frame (s : State) : List Byte := (List.range s.cnt.toNat).map s.cbufRead

/-- The payload in the command buffer: `cbuf[1 .. cnt-1]`, empty when `cnt = 0` (20_memory.md R66). -/
def State.payload (s : State) : List Byte := s.frame.tail

/-- The frame that `read_all` would return now: the oldest waiting one, if `rx_valid` (60_exceptions.md R256). -/
def State.rxFrame? (s : State) : Option (List Byte) := if s.rx_hold then none else s.rx_queue.head?

/-- The level `rx_valid`: at least one whole frame is waiting and is not withheld (60_exceptions.md R256; log 6). -/
def State.rxValid (s : State) : Bool := s.rxFrame?.isSome

/-- Fetch (42_engine_loop.md R170): the oldest frame `f` leaves the Transport, its bytes go to `cbuf[0 ..]`, `cnt` becomes its
length; the other bytes of `cbuf` keep their values. -/
def State.fetch (f : List Byte) (s : State) : State :=
  { s with rx_queue := s.rx_queue.tail
           cbuf := Memory.writeList s.cbuf 0 f
           cnt := BitVec.ofNat 7 f.length }

/-! ### The ring -/

/-- `CAP` of this machine. -/
def State.cap (s : State) : Nat := s.params.cap

/-- `slot(i) = i mod CAP` (40_ring_buffer.md R121). -/
def State.slot (s : State) (i : Index) : Nat := i.toNat % s.cap

/-- `ring[a]` (00_scope.md, section 6). A slot nothing has written since power-up holds a free value (U1). -/
def State.ringRead (s : State) (a : Nat) : Frame :=
  (Memory.lookup s.ring a).getD (Config.ringPowerUp s.power_ups a)

/-- `occupied() = (write_index - read_index) mod CAP` (40_ring_buffer.md R126, R132(b)). -/
def State.occupied (s : State) : Nat := (s.write_index - s.read_index).toNat % s.cap

/-- `free_space() = CAP - 1 - occupied()` (40_ring_buffer.md R127). -/
def State.freeSpace (s : State) : Nat := s.cap - 1 - s.occupied

/-- `peek_current() = ring[slot(read_index)]` (40_ring_buffer.md R123). -/
def State.peekCurrent (s : State) : Frame := s.ringRead (s.slot s.read_index)

/-- `push(f)`: the slot first, then the index (40_ring_buffer.md R122). -/
def State.push (f : Frame) (s : State) : State :=
  { s with ring := Memory.write s.ring (s.slot s.write_index) f
           write_index := s.write_index + 1
           no_data := if s.params.noDataClearOnPush then false else s.no_data }

/-- `push` each Frame of a list, in order. -/
def State.pushAll : List Frame → State → State
  | [], s => s
  | f :: fs, s => State.pushAll fs (s.push f)

/-- `raise <Condition>`: enters the ghost record and nothing else (00_scope.md, section 6; log 9). -/
def State.raise (c : Condition) (s : State) : State := { s with raised := s.raised ++ [c] }

/-- `push_batch(fs)`: bounded tail-drop with the free space sampled once (40_ring_buffer.md R125). -/
def State.pushBatch (fs : List Frame) (s : State) : State :=
  let room := s.freeSpace
  let stored := State.pushAll (fs.take room) s
  if room < fs.length then stored.raise .overrun else stored

/-- `advance_read()` (40_ring_buffer.md R124). -/
def State.advanceRead (s : State) : State := { s with read_index := s.read_index + 1 }

/-! ### The sequencer and the Transport -/

/-- `phase <- p`. -/
def State.goto (p : Phase) (s : State) : State := { s with phase := p }

/-- `Tx(b)`: one `put_byte` call (00_scope.md, section 6). -/
def State.tx (b : Byte) (s : State) : State := { s with tx_sent := s.tx_sent ++ [b] }

/-- `Reinit()` (42_engine_loop.md R168). -/
def State.callReinit (s : State) : State := { s with reinits := s.reinits + 1 }

/-- What this block has in the place of taking an exception (60_exceptions.md R241, R242, R245, R251): the condition is raised,
the frame is dropped, nothing is saved, and the next phase is `FC`. There is nothing to return from (R252). -/
def State.dropFrame (c : Condition) (s : State) : State := (s.raise c).goto .fc

/-- E6 `Disconnected`: the level `cfg = 0` (60_exceptions.md R240, R246). -/
def State.disconnected (s : State) : Bool := !s.cfg

/-! ### Reset -/

/-- The assignments of the Reset command (43_cmd_data.md R190), which power-up makes too (70_reset_and_hazards.md R270). -/
def State.resetCore (s : State) : State :=
  { s with cmd_armed := false, cmd_mode_start := 0
           mode := .idle
           write_index := 0, read_index := 0
           fc_outstanding := false, ack_pending := false, no_data := false
           win_period1 := Config.DEF_WIN_PERIOD, win_period2 := Config.DEF_WIN_PERIOD
           win_offset1 := 0, win_offset2 := 0
           clk_div1 := Config.DEF_CLK_DIV, clk_div2 := Config.DEF_CLK_DIV
           al_en := false, al_div := Config.DEF_AL_DIV, al_width := Config.DEF_AL_WIDTH, al_clksel := 0
           use_timer := false, timer_ready := false
           ports := 0, lines := 0, databits := 0, blocksize := 0
           load_trips := 0
           cur_frame := Config.NEUTRAL_FRAME
           phase := .fc }

end Sys2Proof.Machine
end

