-- ==== Sys2Proof/Machine/Operands.lean ====
section
/-! DEFINITION. Operand assembly: flag bytes, Load operands, and the block decode shared by Load and Bulk Append
(30_encoding.md R97 to R99, 43_cmd_data.md R193, R194). -/

namespace Sys2Proof.Machine

/-- A flag operand: 1 when the byte is non-zero (30_encoding.md R97(c)). -/
def flagOf (b : Byte) : Bool := b != 0

/-- A Load operand is legal when it is 1 or 2 (30_encoding.md R97(d)). -/
def loadOperandLegal (b : Byte) : Bool := b == 1 || b == 2

/-- The channel word that starts at byte `off` of a block: `{b0, b1}` for two data bytes, `{b0, 0x00}` for one
(20_memory.md R64). The reads lie inside the block whenever `off + databits` does (log 14). -/
def channelWord (databits : Nat) (block : List Byte) (off : Nat) : Channel :=
  if databits = 2 then be16 (block.getD off 0) (block.getD (off + 1) 0) else be16 (block.getD off 0) 0

/-- The channel word of port `P` (1 or 2) and line `L` (0 or 1) in a block, neutral when the layout does not hold the pair
(30_encoding.md R98: `k = (P-1)*lines + L`, block byte `k*databits`). -/
def channelOf (ports lines databits : Nat) (block : List Byte) (P L : Nat) : Channel :=
  if P ≤ ports ∧ L < lines then channelWord databits block (((P - 1) * lines + L) * databits) else Config.NEUTRAL

/-- `decode_block` (43_cmd_data.md R193): the pair `(P, L)` goes to `ch[2*(P-1) + L]`. -/
def decodeBlock (ports lines databits : Nat) (block : List Byte) : Frame :=
  { ch0 := channelOf ports lines databits block 1 0
    ch1 := channelOf ports lines databits block 1 1
    ch2 := channelOf ports lines databits block 2 0
    ch3 := channelOf ports lines databits block 2 1 }

/-- The word of port `P` and line `L` of a Frame: `ch[2*(P-1) + L]` (10_state.md R21); neutral for a pair no Frame has. -/
def channelAt (f : Frame) (P L : Nat) : Channel :=
  f.words[2 * (P - 1) + L]?.getD Config.NEUTRAL

/-- The wire bytes of a channel word (20_memory.md R64): both bytes, or the upper one alone. -/
def wordBytes (databits : Nat) (w : Channel) : List Byte :=
  if databits = 2 then [hiByte w, loByte w] else [hiByte w]

/-- The block that carries a Frame, pairs in row-major order (30_encoding.md R98): what the script line `APPEND w, w, ...`
stands for (R109). -/
def encodeBlock (ports lines databits : Nat) (f : Frame) : List Byte :=
  (List.range ports).flatMap fun p => (List.range lines).flatMap fun l => wordBytes databits (channelAt f (p + 1) l)

/-- The Frames of a payload of whole blocks, in wire order (43_cmd_data.md R194): block `b` is payload bytes `b*blocksize` to
`(b+1)*blocksize - 1` (20_memory.md R66). -/
def State.batchFrames (s : State) (payload : List Byte) : List Frame :=
  (List.range (payload.length / s.blocksize.toNat)).map fun b =>
    decodeBlock s.ports.toNat s.lines.toNat s.databits.toNat
      ((payload.drop (b * s.blocksize.toNat)).take s.blocksize.toNat)

/-- `decode_batch` (43_cmd_data.md R194): `none` is `Malformed`: no layout is loaded, or the payload ends inside a block. -/
def State.decodeBatch (s : State) (payload : List Byte) : Option (List Frame) :=
  if s.blocksize.toNat = 0 then none
  else if payload.length % s.blocksize.toNat ≠ 0 then none
  else some (s.batchFrames payload)

/-- What Bulk Append and a Load batch share (43_cmd_data.md R197, R199): a decoded batch is pushed and clears
`fc_outstanding`, a malformed one raises E2 and changes nothing. -/
def State.acceptBatch (payload : List Byte) (s : State) : State :=
  match s.decodeBatch payload with
  | some fs => { s.pushBatch fs with fc_outstanding := false }
  | none => s.raise .malformedPayload

end Sys2Proof.Machine
end

