-- ==== Sys2Proof/Machine/CmdData.lean ====
section
/-! DEFINITION. The data-path commands RESET, LOAD and APPEND (43_cmd_data.md). -/

namespace Sys2Proof.Machine

/-- `RESET` (43_cmd_data.md R190, R191): the ring storage, `cbuf`, `cnt` and the Transport are left alone. -/
def execReset (s : State) : Host.Outcome State Fault Refusal := .next s.resetCore

/-- An accepted `LOAD` (43_cmd_data.md R195): the operands are copied out of the command buffer, the indices stay. -/
def State.acceptLoad (ports databits lines useTimer : Byte) (s : State) : State :=
  { s with ports := ports.setWidth 2
           databits := databits.setWidth 2
           lines := lines.setWidth 2
           use_timer := flagOf useTimer
           blocksize := BitVec.ofNat 4 (ports.toNat * databits.toNat * lines.toNat)
           load_trips := BitVec.ofNat 6 (Config.LOAD_FACTOR * (ports.toNat * databits.toNat * lines.toNat))
           mode := .loading
           phase := .loadTx }

/-- `LOAD ports, databits, lines, use_timer` (43_cmd_data.md R195): the mode is tested before the operand range
(60_exceptions.md R250(c)). -/
def execLoad (ports databits lines useTimer : Byte) (s : State) : Host.Outcome State Fault Refusal :=
  if s.mode ≠ .idle then .next (s.dropFrame .loadNotIdle)
  else if loadOperandLegal ports && loadOperandLegal databits && loadOperandLegal lines then
    .next (s.acceptLoad ports databits lines useTimer)
  else .next (s.dropFrame .malformedPayload)

/-- `APPEND` (43_cmd_data.md R199, R200). -/
def execAppend (payload : List Byte) (s : State) : Host.Outcome State Fault Refusal :=
  .next ((s.acceptBatch payload).goto .fc)

end Sys2Proof.Machine
end

