-- ==== Sys2Proof/Machine/CmdMode.lean ====
section
/-! DEFINITION. ARM, RESYNC and PING (45_cmd_mode.md). -/

namespace Sys2Proof.Machine

/-- `ARM v16` (45_cmd_mode.md R231). -/
def execArm (v16 : Word) (s : State) : Host.Outcome State Fault Refusal :=
  .next { s with cmd_mode_start := v16, cmd_armed := true, phase := .fc }

/-- `RESYNC` (45_cmd_mode.md R232): the fall-through into Ping is the phase it leaves behind. -/
def execResync (s : State) : Host.Outcome State Fault Refusal :=
  .next { s with no_data := true
                 read_index := s.write_index
                 mode := if s.mode = .commandMode then .playing else s.mode
                 phase := .pingTx }

/-- `PING` (45_cmd_mode.md R233): the byte itself is sent by phase `PING_TX` (R234). -/
def execPing (s : State) : Host.Outcome State Fault Refusal := .next (s.goto .pingTx)

end Sys2Proof.Machine
end

