-- ==== Sys2Proof/Machine/CmdTiming.lean ====
section
/-! DEFINITION. The eight commands that write the Timing Configuration Store (44_cmd_timing.md). -/

namespace Sys2Proof.Machine

/-- `WINPER1 v16` (44_cmd_timing.md R210). -/
def execWinper1 (v16 : Word) (s : State) : Host.Outcome State Fault Refusal :=
  .next { s with win_period1 := v16, phase := .fc }

/-- `WINOFF1 v16` (44_cmd_timing.md R211). -/
def execWinoff1 (v16 : Word) (s : State) : Host.Outcome State Fault Refusal :=
  .next { s with win_offset1 := v16, phase := .fc }

/-- `TMROFF` (44_cmd_timing.md R212). -/
def execTmroff (s : State) : Host.Outcome State Fault Refusal :=
  .next { s with use_timer := false, phase := .fc }

/-- `TMRON` (44_cmd_timing.md R213). -/
def execTmron (s : State) : Host.Outcome State Fault Refusal :=
  .next { s with use_timer := true, timer_ready := true, phase := .fc }

/-- `CLKDIV1 v8` (44_cmd_timing.md R214). -/
def execClkdiv1 (v8 : Byte) (s : State) : Host.Outcome State Fault Refusal :=
  .next { s with clk_div1 := v8, phase := .fc }

/-- `CLKDIV2 v8` (44_cmd_timing.md R215). -/
def execClkdiv2 (v8 : Byte) (s : State) : Host.Outcome State Fault Refusal :=
  .next { s with clk_div2 := v8, phase := .fc }

/-- `ALCFG en, sel` (44_cmd_timing.md R216). -/
def execAlcfg (en sel : Byte) (s : State) : Host.Outcome State Fault Refusal :=
  .next { s with al_en := flagOf en, al_clksel := sel, phase := .fc }

/-- `ALWIDTH v8` (44_cmd_timing.md R217). -/
def execAlwidth (v8 : Byte) (s : State) : Host.Outcome State Fault Refusal :=
  .next { s with al_width := v8, al_div := v8, phase := .fc }

end Sys2Proof.Machine
end

