-- ==== Sys2Proof/Machine/Dispatch.lean ====
section
/-! DEFINITION. One arm per command (42_engine_loop.md R171). -/

namespace Sys2Proof.Machine

/-- The effect of a decoded command (42_engine_loop.md R171). -/
def exec (i : Instr) (s : State) : Host.Outcome State Fault Refusal :=
  match i with
  | .reset => Sys2Proof.Machine.execReset s
  | .load ports databits lines useTimer => Sys2Proof.Machine.execLoad ports databits lines useTimer s
  | .append payload => Sys2Proof.Machine.execAppend payload s
  | .winper1 v16 => Sys2Proof.Machine.execWinper1 v16 s
  | .winoff1 v16 => Sys2Proof.Machine.execWinoff1 v16 s
  | .tmroff => Sys2Proof.Machine.execTmroff s
  | .tmron => Sys2Proof.Machine.execTmron s
  | .clkdiv1 v8 => Sys2Proof.Machine.execClkdiv1 v8 s
  | .clkdiv2 v8 => Sys2Proof.Machine.execClkdiv2 v8 s
  | .alcfg en sel => Sys2Proof.Machine.execAlcfg en sel s
  | .alwidth v8 => Sys2Proof.Machine.execAlwidth v8 s
  | .arm v16 => Sys2Proof.Machine.execArm v16 s
  | .resync => Sys2Proof.Machine.execResync s
  | .ping => Sys2Proof.Machine.execPing s

end Sys2Proof.Machine
end

