-- ==== Sys2Proof/Machine/Flags.lean ====
section
/-! DEFINITION. The conditions the Engine and the latch event compute from flags (42_engine_loop.md R162, R165;
41_mode_state_machine.md R146). -/

namespace Sys2Proof.Machine

/-- A flow-control request is due (42_engine_loop.md R162): a level, evaluated in every iteration. -/
def State.requestDue (s : State) : Bool :=
  s.cfg && s.mode == .playing && !s.fc_outstanding && decide (Config.LOW_WATER < s.freeSpace)

/-- A command-mode acknowledgement is due (42_engine_loop.md R165). -/
def State.ackDue (s : State) : Bool := s.cfg && s.ack_pending

/-- The CommandMode entry test of a latch event, on the state after the advance (41_mode_state_machine.md R146). -/
def State.tickMatch (s : State) : Bool :=
  s.mode == .playing && s.cmd_armed && s.read_index == s.cmd_mode_start

/-- The entry into CommandMode (41_mode_state_machine.md R146). -/
def State.enterCommandMode (s : State) : State :=
  { s with mode := .commandMode, ack_pending := true, cmd_armed := false }

end Sys2Proof.Machine
end

