-- ==== Sys2Proof/Machine/Engine.lean ====
section
/-! DEFINITION. The Protocol Engine's poll loop: one definition per phase (42_engine_loop.md R160). A step whose guard is false
leaves the state as it is (00_scope.md R8, 93_implementation_defined.md U10; log 11). -/

namespace Sys2Proof.Machine

/-- Phase `FC` (42_engine_loop.md R162). -/
def State.stepFc (s : State) : State := s.goto (if s.requestDue then .fcTx else .ack)

/-- Phase `FC_TX` (42_engine_loop.md R163). -/
def State.stepFcTx (s : State) : State :=
  if s.tx_ready then ({ s.tx Config.REQ with fc_outstanding := true }).goto .ack else s

/-- Phase `ACK` (42_engine_loop.md R165). -/
def State.stepAck (s : State) : State := s.goto (if s.ackDue then .ackTx else .cmd)

/-- Phase `ACK_TX` (42_engine_loop.md R166). -/
def State.stepAckTx (s : State) : State :=
  if s.tx_ready then ({ s.tx Config.ACK with ack_pending := false }).goto .cmd else s

/-- Phase `PING_TX` (45_cmd_mode.md R234). -/
def State.stepPingTx (s : State) : State := if s.tx_ready then (s.tx Config.PONG).goto .fc else s

/-- Phase `LOAD_TX` (43_cmd_data.md R196): `fc_outstanding` is not set. -/
def State.stepLoadTx (s : State) : State := if s.tx_ready then (s.tx Config.REQ).goto .loadRx else s

/-- Dispatch of the frame in the command buffer (42_engine_loop.md R171). -/
def dispatch (s : State) : Host.Outcome State Fault Refusal :=
  match decode s.frame with
  | .instr i => exec i s
  | .unknownOpcode => .next (s.dropFrame .unknownOpcode)
  | .tooShort => .next (s.dropFrame .malformedPayload)

/-- The configuration-change check of the `CMD` step, made whatever `cfg` is (42_engine_loop.md R167, R168). -/
def State.checkConfig (s : State) : State := if s.cfg_changed then s.callReinit else s

/-- Phase `CMD` (42_engine_loop.md R167): check, then at most one fetch and dispatch. A frame of more than 64 bytes is refused
(R170, 93_implementation_defined.md U4). -/
def stepCmd (s : State) : Host.Outcome State Fault Refusal :=
  match s.cfg, s.checkConfig.rxFrame? with
  | true, some f => if frameWf f then dispatch (s.checkConfig.fetch f) else .refused .frameTooLong
  | _, _ => .next (s.checkConfig.goto .fc)

/-- Load completion (43_cmd_data.md R198). -/
def State.finishLoad (s : State) : State := { s with cur_frame := s.peekCurrent, mode := .playing, phase := .fc }

/-- The batch half of a Load round trip, after the fetch (43_cmd_data.md R197): byte 0 is not examined. -/
def State.loadBatch (s : State) : State :=
  let s1 := s.acceptBatch s.payload
  let s2 := { s1 with load_trips := s1.load_trips - 1 }
  if s2.load_trips = 0 then s2.finishLoad else s2.goto .loadTx

/-- Phase `LOAD_RX` (43_cmd_data.md R197), not gated by `cfg`. -/
def stepLoadRx (s : State) : Host.Outcome State Fault Refusal :=
  match s.rxFrame? with
  | some f => if frameWf f then .next (s.fetch f).loadBatch else .refused .frameTooLong
  | none => .next s

/-- One Engine step (42_engine_loop.md R160). -/
def engineStep (s : State) : Host.Outcome State Fault Refusal :=
  match s.phase with
  | .fc => .next s.stepFc
  | .fcTx => .next s.stepFcTx
  | .ack => .next s.stepAck
  | .ackTx => .next s.stepAckTx
  | .cmd => stepCmd s
  | .pingTx => .next s.stepPingTx
  | .loadTx => .next s.stepLoadTx
  | .loadRx => stepLoadRx s

end Sys2Proof.Machine
end

