-- ==== Sys2Proof/Machine/Agents.lean ====
section
/-! DEFINITION. The other agents: the Output Stage's latch event, power-up, and the Host behind the Transport. -/

namespace Sys2Proof.Machine

/-- The latch event, complete and in one step (41_mode_state_machine.md R146): advance, then the CommandMode test on the new
`read_index`. On an empty ring it is the underrun E5, which has no other effect (60_exceptions.md R244). -/
def State.latch (s : State) : State :=
  let s1 := (if s.occupied = 0 then s.raise .underrun else s).advanceRead
  if s1.tickMatch then s1.enterCommandMode else s1

/-- Power-up, or the hardware reset input (70_reset_and_hazards.md R270, R271): the Reset command's assignments, `cnt <- 0`, and
both memories hold unspecified values again, and the Transport's queue, which Reset leaves alone, is empty (R271; log 5). No byte is sent. -/
def State.powerUp (s : State) : State :=
  { s.resetCore with ring := [], cbuf := [], cnt := 0, rx_queue := [], power_ups := s.power_ups + 1 }

/-- The Transport may lower `rx_valid` untaken only while the link is not configured: `rx_valid` stays high until the frame is taken
(60_exceptions.md R256), and is kept low while not configured (42_engine_loop.md R161; log 6). Otherwise the event is none. -/
def State.setRxHold (b : Bool) (s : State) : State := if b && s.cfg && s.rxValid then s else { s with rx_hold := b }

/-- The Transport may lose its waiting frames only while the link is not configured: frames arrive whole and in order
(60_exceptions.md R256), and whether they are kept across a disconnect is open (93_implementation_defined.md U13; log 6). -/
def State.loseFrames (s : State) : State := if s.cfg then s else { s with rx_queue := [] }

/-- One event (00_scope.md R9). The Host may send a frame of 0 to 64 bytes; a longer one is refused at the interface
(42_engine_loop.md R170, 93_implementation_defined.md U4). -/
def runEvent (e : Event) (s : State) : Host.Outcome State Fault Refusal :=
  match e with
  | .engine => engineStep s
  | .latch => .next s.latch
  | .powerUp => .next s.powerUp
  | .hostSend f => if frameWf f then .next { s with rx_queue := s.rx_queue ++ [f] } else .refused .frameTooLong
  | .setCfg b => .next { s with cfg := b }
  | .setCfgChanged b => .next { s with cfg_changed := b }
  | .setTxReady b => .next { s with tx_ready := b }
  | .setRxHold b => .next (s.setRxHold b)
  | .dropFrames => .next s.loseFrames

/-- The event that happens next and the state it acts on: the head of the agenda, or an Engine step (log 1). -/
def State.nextEvent (s : State) : Event × State :=
  match s.agenda with
  | [] => (.engine, s)
  | e :: rest => (e, { s with agenda := rest })

end Sys2Proof.Machine
end

