-- ==== Sys2Proof/Machine/Step.lean ====
section
/-! DEFINITION. One step of the machine, and how a command word is placed where the next step fetches it. -/

namespace Sys2Proof.Machine

/-- One atomic event (00_scope.md R9): the head of the agenda, or an Engine step when the agenda is empty (log 1). -/
def step (s : State) : Host.Outcome State Fault Refusal := runEvent s.nextEvent.1 s.nextEvent.2

/-- `s` with the frame of an opcode-table word as the oldest waiting frame and the Engine about to fetch it (log 12): the next
event is an Engine step, the phase is `CMD`, the link is configured, and `rx_valid` is high. -/
def State.withFetchWord (s : State) (nbits w : Nat) : State :=
  { s with agenda := .engine :: s.agenda
           phase := .cmd
           cfg := true
           rx_hold := false
           rx_queue := tableFrame nbits w :: s.rx_queue }

end Sys2Proof.Machine
end

