-- ==== Sys2Proof/Machine/Outputs.lean ====
section
/-! DEFINITION. The Output Stage interface (60_exceptions.md R257) and the hardware encodings of 10_state.md R24, R27. -/

namespace Sys2Proof.Machine

/-- The hardware encoding of `phase` in 3 bits (10_state.md R24); no rule depends on it. -/
def Phase.code : Phase → BitVec 3
  | .fc => 0
  | .fcTx => 1
  | .ack => 2
  | .ackTx => 3
  | .cmd => 4
  | .pingTx => 5
  | .loadTx => 6
  | .loadRx => 7

/-- The hardware encoding of `mode` in 2 bits (10_state.md R27); no rule depends on it. -/
def Mode.code : Mode → BitVec 2
  | .idle => 0
  | .loading => 1
  | .playing => 2
  | .commandMode => 3

/-- The signals the core drives towards the Output Stage and the timers (60_exceptions.md R257). -/
structure Outputs where
  rd_frame : Frame
  cur_frame : Frame
  mode : BitVec 2
  no_data : Bool
  occupied : Nat
  free_space : Nat
  win_period1 : Word
  win_period2 : Word
  win_offset1 : Word
  win_offset2 : Word
  clk_div1 : Byte
  clk_div2 : Byte
  use_timer : Bool
  timer_ready : Bool
  al_en : Bool
  al_div : Byte
  al_width : Byte
  al_clksel : Byte
  ports : BitVec 2
  lines : BitVec 2
  databits : BitVec 2
  deriving DecidableEq, Repr

/-- The output signals of a state: plain levels, all functions of the state (10_state.md R44, 60_exceptions.md R257). -/
def State.outputs (s : State) : Outputs where
  rd_frame := s.peekCurrent
  cur_frame := s.cur_frame
  mode := s.mode.code
  no_data := s.no_data
  occupied := s.occupied
  free_space := s.freeSpace
  win_period1 := s.win_period1
  win_period2 := s.win_period2
  win_offset1 := s.win_offset1
  win_offset2 := s.win_offset2
  clk_div1 := s.clk_div1
  clk_div2 := s.clk_div2
  use_timer := s.use_timer
  timer_ready := s.timer_ready
  al_en := s.al_en
  al_div := s.al_div
  al_width := s.al_width
  al_clksel := s.al_clksel
  ports := s.ports
  lines := s.lines
  databits := s.databits

end Sys2Proof.Machine
end

