-- ==== Sys2Proof/Safety.lean ====
section
/-! DEFINITION. The words that statements about the machine are written in: the invariant, the queue the ring stands for, and what it
means for the Engine to be idle. -/

namespace Sys2Proof.Machine

/-- A legal decode layout is loaded: each field 1 or 2, and `blocksize` is their product (10_state.md R39). -/
def State.layoutLoaded (s : State) : Prop :=
  (s.ports.toNat = 1 ∨ s.ports.toNat = 2) ∧ (s.lines.toNat = 1 ∨ s.lines.toNat = 2) ∧
  (s.databits.toNat = 1 ∨ s.databits.toNat = 2) ∧
  s.blocksize.toNat = s.ports.toNat * s.databits.toNat * s.lines.toNat

/-- No layout is loaded: all four fields 0 (10_state.md R39). -/
def State.layoutEmpty (s : State) : Prop := s.ports = 0 ∧ s.lines = 0 ∧ s.databits = 0 ∧ s.blocksize = 0

/-- What holds in every state a run reaches. -/
structure State.Inv (s : State) : Prop where
  /-- The ring is in canonical form, every listed slot below `CAP` (20_memory.md R60). -/
  ring_wf : Memory.wf s.cap s.ring = true
  /-- The command buffer is in canonical form, every listed index below 64 (20_memory.md R61). -/
  cbuf_wf : Memory.wf Config.CBUF_CAP s.cbuf = true
  /-- `cnt` is 0 to 64 (10_state.md R26). -/
  cnt_le : s.cnt.toNat ≤ Config.CBUF_CAP
  /-- Every valid byte of the command buffer has been written since power-up (10_state.md R26). -/
  cbuf_written : ∀ i, i < s.cnt.toNat → (Memory.lookup s.cbuf i).isSome = true
  /-- Every waiting frame has at most 64 bytes (93_implementation_defined.md U4). -/
  queue_fits : ∀ f ∈ s.rx_queue, frameWf f = true
  /-- In `Idle` no layout is loaded, in the other modes a legal one is (10_state.md R39, 41_mode_state_machine.md R142). -/
  layout : (s.mode = .idle ∧ s.layoutEmpty) ∨ (s.mode ≠ .idle ∧ s.layoutLoaded)
  /-- `mode = Loading` if and only if the Engine is in `LOAD_TX` or `LOAD_RX` (41_mode_state_machine.md R143). -/
  loading_iff : s.mode = .loading ↔ s.phase = .loadTx ∨ s.phase = .loadRx
  /-- Round trips are left exactly while loading, at most `4*blocksize` (10_state.md R25). -/
  trips : (s.mode = .loading ∧ 1 ≤ s.load_trips.toNat ∧ s.load_trips.toNat ≤ Config.LOAD_FACTOR * s.blocksize.toNat) ∨
    (s.mode ≠ .loading ∧ s.load_trips = 0)
  /-- A request is only sent when none is outstanding (42_engine_loop.md R164). -/
  request_once : s.phase = .fcTx → s.fc_outstanding = false
  /-- An acknowledgement is only sent when one is pending (42_engine_loop.md R165). -/
  ack_served : s.phase = .ackTx → s.ack_pending = true
  /-- No command sets port 2's window period or offset (44_cmd_timing.md R218). -/
  port2 : s.win_period2 = Config.DEF_WIN_PERIOD ∧ s.win_offset2 = 0
  /-- One byte sets both, so they never differ (44_cmd_timing.md R217). -/
  autolatch : s.al_width = s.al_div

/-- The queue that the ring stands for: the unread Frames, oldest first (40_ring_buffer.md R126, R128). -/
def State.unread (s : State) : List Frame :=
  (List.range s.occupied).map fun j => s.ringRead (s.slot (s.read_index + BitVec.ofNat Config.IDXW j))

/-- Both memories read the same in the two states, at every address. -/
def SameMemories (s t : State) : Prop :=
  (∀ a, t.ringRead a = s.ringRead a) ∧ (∀ i, t.cbufRead i = s.cbufRead i)

/-- The state with its command buffer blanked out: what is left when the buffer's bytes are not looked at. -/
def State.eraseBuffer (s : State) : State := { s with cbuf := [], cnt := 0 }

/-- The execution is finished for the purpose of a claim (42_engine_loop.md R176): no event is to come, no frame is waiting, no wait
phase is active, no flag is to be served. DESIGN CHOICE (log 18), where R176 does not say: an acknowledgement pending while `cfg = 0` is no
flag waiting to be served, since the `ACK` step does not serve it (`ackDue`, R165); a frame that the Transport withholds is not waiting, one
on offer is, whatever `cfg` is; and no configuration change is to be handled. -/
def State.quiescent (s : State) : Prop :=
  s.agenda = [] ∧ s.rxValid = false ∧ s.cfg_changed = false ∧ s.requestDue = false ∧ s.ackDue = false ∧
  (s.phase = .fc ∨ s.phase = .ack ∨ s.phase = .cmd)

/-- A Frame that a layout can carry: neutral outside the layout, and with a zero lower byte where a word is one byte on the wire
(30_encoding.md R98, 20_memory.md R64). -/
def frameFits (ports lines databits : Nat) (f : Frame) : Prop :=
  ∀ P L, (P = 1 ∨ P = 2) → (L = 0 ∨ L = 1) →
    if P ≤ ports ∧ L < lines then databits = 1 → loByte (channelAt f P L) = 0 else channelAt f P L = Config.NEUTRAL

end Sys2Proof.Machine
end

