-- ==== Sys2Proof/Certificates/Slice0/Obligations.lean ====
section
/-! DEFINITION. The statements about the core, for the provers. Throughout, `s.nextEvent = (.engine, u)` says that the next event is an
Engine step and `u` is the state it acts on (the agenda's head removed); `u.checkConfig` is `u` after the configuration-change check of
the `CMD` step. An equation `t = { s with … }` says the whole next state, and so the frame: every register, flag, memory and Transport field
not named in it is unchanged. -/

section
open Sys2Proof Sys2Proof.Machine

/-! ### Reset -/

/-- 10_state.md R47, 70_reset_and_hazards.md R270, R272: the core's state after power-up, every element; both memories unwritten. Several of
the values are the spec's decisions D13, D17, D24, D25, D34. The Transport's fields (log 7) are not part of it. The last clause, 127 free slots, rests
on the model's choice `CAP = 128` in `State.reset` (log 2, DESIGN CHOICE; the spec's default, D1) and holds of that capacity only. -/
def Obligations.PowerUpValues : Prop :=
  State.reset.mode = .idle ∧ State.reset.write_index = 0 ∧ State.reset.read_index = 0 ∧
  State.reset.cur_frame = ⟨0xFFFF, 0xFFFF, 0xFFFF, 0xFFFF⟩ ∧
  State.reset.win_period1 = 2500 ∧ State.reset.win_period2 = 2500 ∧
  State.reset.win_offset1 = 0 ∧ State.reset.win_offset2 = 0 ∧
  State.reset.clk_div1 = 2 ∧ State.reset.clk_div2 = 2 ∧
  State.reset.al_div = 16 ∧ State.reset.al_width = 16 ∧ State.reset.al_en = false ∧ State.reset.al_clksel = 0 ∧
  State.reset.use_timer = false ∧ State.reset.timer_ready = false ∧
  State.reset.ports = 0 ∧ State.reset.lines = 0 ∧ State.reset.databits = 0 ∧ State.reset.blocksize = 0 ∧
  State.reset.cmd_mode_start = 0 ∧ State.reset.cmd_armed = false ∧
  State.reset.fc_outstanding = false ∧ State.reset.ack_pending = false ∧ State.reset.no_data = false ∧
  State.reset.phase = .fc ∧ State.reset.load_trips = 0 ∧ State.reset.cnt = 0 ∧
  (∀ a, Memory.lookup State.reset.ring a = none) ∧ (∀ i, Memory.lookup State.reset.cbuf i = none) ∧
  State.reset.occupied = 0 ∧ State.reset.freeSpace = 127

/-- The invariant holds after power-up. -/
def Obligations.PowerUpMeetsInvariant : Prop := State.Inv State.reset

/-- Every event keeps the invariant: the memories stay canonical, `cnt` and `load_trips` stay in range, a layout is loaded exactly outside
`Idle`, `mode = Loading` exactly in the two Load phases, and port 2's window period and offset keep their reset values. -/
def Obligations.EveryStepKeepsInvariant : Prop :=
  ∀ s t : State, s.Inv → step s = .next t → t.Inv

/-- 43_cmd_data.md R190 (D13, D17, D24, D34 for the values the source does not document): RESET completes in every state, writes exactly
these elements, and leaves the ring empty. -/
def Obligations.ResetRestoresDefaults : Prop :=
  ∀ s : State, ∃ t, exec .reset s = .next t ∧ t.occupied = 0 ∧
    t = { s with
      cmd_armed := false, cmd_mode_start := 0, mode := .idle, write_index := 0, read_index := 0,
      fc_outstanding := false, ack_pending := false, no_data := false,
      win_period1 := 2500, win_period2 := 2500, win_offset1 := 0, win_offset2 := 0, clk_div1 := 2, clk_div2 := 2,
      al_en := false, al_div := 16, al_width := 16, al_clksel := 0, use_timer := false, timer_ready := false,
      ports := 0, lines := 0, databits := 0, blocksize := 0, load_trips := 0,
      cur_frame := ⟨0xFFFF, 0xFFFF, 0xFFFF, 0xFFFF⟩, phase := .fc }

/-- 43_cmd_data.md R191 (D25): RESET writes no byte of either memory, not `cnt`, not the Transport; afterwards `peek_current()` is slot 0. -/
def Obligations.ResetLeavesMemoriesAlone : Prop :=
  ∀ s t : State, exec .reset s = .next t →
    SameMemories s t ∧ t.cnt = s.cnt ∧ t.rx_queue = s.rx_queue ∧ t.tx_sent = s.tx_sent ∧ t.reinits = s.reinits ∧
    t.peekCurrent = s.ringRead 0

/-- 41_mode_state_machine.md R148: a Reset frame executed in any mode gives `Idle`; one that arrives in `LOAD_RX` is consumed as a batch of
no Frames, and the Load goes on. -/
def Obligations.ResetGivesIdleOutsideLoading : Prop :=
  (∀ (s u : State) (extra : List Byte), s.nextEvent = (.engine, u) → u.phase = .cmd → u.cfg = true →
    u.rxFrame? = some (0x00#8 :: extra) → extra.length ≤ 63 → ∃ t, step s = .next t ∧ t.mode = .idle) ∧
  (∀ s u : State, s.nextEvent = (.engine, u) → u.phase = .loadRx → u.mode = .loading → u.blocksize ≠ 0 →
    u.rxFrame? = some [0x00#8] →
    ∃ t, step s = .next t ∧ (t.mode = .loading ∨ t.mode = .playing) ∧ t.write_index = u.write_index ∧
      (∀ a, t.ringRead a = u.ringRead a) ∧ t.load_trips = u.load_trips - 1) ∧
  (∀ s : State, s.Inv → s.mode = .loading → s.phase ≠ .cmd)

/-- 70_reset_and_hazards.md R270, R271 (D25; R271 is derived in the spec): power-up makes the assignments of RESET, sets `cnt` to 0, and leaves both
memories unwritten; unlike RESET, it also empties the Transport's queue. That the queue is emptied rather than partly kept, that the Transport's other
fields stay, and the counter `power_ups` are the model's choices (log 5). -/
def Obligations.PowerUpIsResetWithUnwrittenMemories : Prop :=
  ∀ s u t : State, s.nextEvent = (.powerUp, u) → exec .reset u = .next t →
    ∃ t', step s = .next t' ∧ t' = { t with ring := [], cbuf := [], cnt := 0, rx_queue := [], power_ups := u.power_ups + 1 } ∧
      t.rx_queue = u.rx_queue ∧
      (∀ a, t'.ringRead a = Config.ringPowerUp (u.power_ups + 1) a) ∧
      (∀ i, t'.cbufRead i = Config.cbufPowerUp (u.power_ups + 1) i)

/-! ### Encoding -/

/-- Decode and encode agree: no operand bit of any command is dropped. -/
def Obligations.DecodeOfEncodeIsTheCommand : Prop :=
  ∀ i : Instr, i.wf = true → decode (encode i) = .instr i ∧ frameWf (encode i) = true

/-- Every frame that decodes to a command begins with that command's encoding, and a batch has nothing after it: each command has one
encoding up to ignored bytes. -/
def Obligations.DecodedFrameStartsWithItsEncoding : Prop :=
  ∀ (b : List Byte) (i : Instr), decode b = .instr i →
    ∃ extra, b = encode i ++ extra ∧ (i.op = .append → extra = [])

/-- 30_encoding.md R94 (D9): bytes beyond the last field of a fixed-length format are ignored. -/
def Obligations.ExcessBytesAreIgnored : Prop :=
  ∀ (i : Instr) (extra : List Byte), i.op ≠ .append → decode (encode i ++ extra) = .instr i

/-- 30_encoding.md R95, 20_memory.md R63: frames written out from the tables decode to the commands they stand for. -/
def Obligations.OpcodeMapWords : Prop :=
  decode [0x00#8] = .instr .reset ∧
  decode [0x01#8, 0x02#8, 0x01#8, 0x02#8, 0x80#8] = .instr (.load 0x02 0x01 0x02 0x80) ∧
  decode [0x0F#8, 0x10#8, 0x20#8] = .instr (.append [0x10, 0x20]) ∧
  decode [0xA0#8, 0x09#8, 0xC4#8] = .instr (.winper1 2500) ∧
  decode [0xA1#8, 0x00#8, 0x10#8] = .instr (.winoff1 16) ∧
  decode [0xA2#8] = .instr .tmroff ∧
  decode [0xA3#8] = .instr .tmron ∧
  decode [0xA4#8, 0x05#8] = .instr (.clkdiv1 5) ∧
  decode [0xB4#8, 0x07#8] = .instr (.clkdiv2 7) ∧
  decode [0xC0#8, 0x01#8, 0x03#8] = .instr (.alcfg 1 3) ∧
  decode [0xC1#8, 0x08#8] = .instr (.alwidth 8) ∧
  decode [0xD0#8, 0x00#8, 0x02#8] = .instr (.arm 2) ∧
  decode [0xD1#8] = .instr .resync ∧
  decode [0xFF#8] = .instr .ping

/-- 30_encoding.md R96, 60_exceptions.md R241: a frame whose byte 0 is none of the 14 opcodes is fetched and has no other effect; no byte
is sent. (`raised` is the model's ghost record, log 9.) -/
def Obligations.ReservedOpcodesAreIgnored : Prop :=
  ∀ (s u : State) (b : Byte) (args : List Byte), s.nextEvent = (.engine, u) → u.phase = .cmd → u.cfg = true →
    b ∉ [0x00#8, 0x01#8, 0x0F#8, 0xA0#8, 0xA1#8, 0xA2#8, 0xA3#8, 0xA4#8, 0xB4#8, 0xC0#8, 0xC1#8, 0xD0#8, 0xD1#8, 0xFF#8] →
    u.rxFrame? = some (b :: args) → args.length ≤ 63 →
    ∃ v, v = u.checkConfig.fetch (b :: args) ∧
      step s = .next { v with phase := .fc, raised := u.raised ++ [.unknownOpcode] } ∧
      v.frame = b :: args ∧ v.rx_queue = u.rx_queue.tail ∧ v.tx_sent = u.tx_sent

/-- 30_encoding.md R101, 60_exceptions.md R240 (D8): the empty frame is consumed and ignored in `CMD`. -/
def Obligations.EmptyFrameIsIgnoredInCmd : Prop :=
  ∀ s u : State, s.nextEvent = (.engine, u) → u.phase = .cmd → u.cfg = true → u.rxFrame? = some [] →
    ∃ v, v = u.checkConfig.fetch [] ∧ step s = .next { v with phase := .fc, raised := u.raised ++ [.unknownOpcode] }

/-- 30_encoding.md R94, 60_exceptions.md R242 (D9): a frame shorter than the minimum of its opcode's format is fetched and has no other
effect. -/
def Obligations.ShortFramesAreDropped : Prop :=
  ∀ (s u : State) (o : Op) (args : List Byte), s.nextEvent = (.engine, u) → u.phase = .cmd → u.cfg = true →
    u.rxFrame? = some (o.code :: args) → args.length + 1 < o.format.minCnt →
    ∃ v, v = u.checkConfig.fetch (o.code :: args) ∧
      step s = .next { v with phase := .fc, raised := u.raised ++ [.malformedPayload] }

/-- 93_implementation_defined.md U4 (D8): a frame of more than 64 bytes is refused where the Host sends it, and one of at most 64 is enqueued. The
second clause, that the Engine's fetch of a longer one is refused too, is the model's choice for states no run reaches (log 10). -/
def Obligations.OverlongFrameIsRefused : Prop :=
  (∀ (s u : State) (f : List Byte), s.nextEvent = (.hostSend f, u) →
    step s = if f.length ≤ 64 then .next { u with rx_queue := u.rx_queue ++ [f] } else .refused .frameTooLong) ∧
  (∀ (s u : State) (f : List Byte), s.nextEvent = (.engine, u) → u.rxFrame? = some f → 64 < f.length →
    (u.phase = .cmd ∧ u.cfg = true) ∨ u.phase = .loadRx → step s = .refused .frameTooLong)

/-! ### The timing commands -/

/-- 44_cmd_timing.md R210: WINPER1 stores every 16-bit value as given in port 1's window period, and nothing else; a frame's bytes 1 and 2 are
the value, high byte first; a shorter frame is not accepted. -/
def Obligations.Winper1SetsPort1WindowPeriod : Prop :=
  (∀ (v : Word) (s : State), exec (.winper1 v) s = .next { s with win_period1 := v, phase := .fc }) ∧
  (∀ (s u : State) (hi lo : Byte) (extra : List Byte), s.nextEvent = (.engine, u) → u.phase = .cmd → u.cfg = true →
    u.rxFrame? = some (0xA0#8 :: hi :: lo :: extra) → extra.length ≤ 61 →
    ∃ t, step s = .next t ∧ t.win_period1.toNat = hi.toNat * 256 + lo.toNat ∧ t.win_period2 = u.win_period2) ∧
  (∀ (s u : State) (args : List Byte), s.nextEvent = (.engine, u) → u.phase = .cmd → u.cfg = true →
    u.rxFrame? = some (0xA0#8 :: args) → args.length < 2 →
    ∃ t, step s = .next t ∧ t.win_period1 = u.win_period1 ∧ t.win_period2 = u.win_period2)

/-- 44_cmd_timing.md R217: ALWIDTH sets both the recorded bit width and the divisor, and nothing else; after it they are equal. The value is
byte 1; a shorter frame is not accepted. -/
def Obligations.AlwidthSetsWidthAndDivisor : Prop :=
  (∀ (v : Byte) (s : State), ∃ t, exec (.alwidth v) s = .next t ∧
    t = { s with al_width := v, al_div := v, phase := .fc } ∧ t.al_width = t.al_div) ∧
  (∀ (s u : State) (v : Byte) (extra : List Byte), s.nextEvent = (.engine, u) → u.phase = .cmd → u.cfg = true →
    u.rxFrame? = some (0xC1#8 :: v :: extra) → extra.length ≤ 62 →
    ∃ t, step s = .next t ∧ t.al_width = v ∧ t.al_div = v) ∧
  (∀ s u : State, s.nextEvent = (.engine, u) → u.phase = .cmd → u.cfg = true → u.rxFrame? = some [0xC1#8] →
    ∃ t, step s = .next t ∧ t.al_width = u.al_width ∧ t.al_div = u.al_div)

/-- 44_cmd_timing.md R211, R214, R215 (D22, D23): WINOFF1 writes port 1's window offset, CLKDIV1 and CLKDIV2 the divisor of their port, each
as given and nothing else. -/
def Obligations.PortTimingCommandsWriteTheirField : Prop :=
  ∀ (v : Word) (b : Byte) (s : State),
    exec (.winoff1 v) s = .next { s with win_offset1 := v, phase := .fc } ∧
    exec (.clkdiv1 b) s = .next { s with clk_div1 := b, phase := .fc } ∧
    exec (.clkdiv2 b) s = .next { s with clk_div2 := b, phase := .fc }

/-- 44_cmd_timing.md R212, R213 (D21): TMROFF clears `use_timer` and leaves `timer_ready`; TMRON sets both; nothing else. -/
def Obligations.TimerCommandsSwitchWindowing : Prop :=
  ∀ s : State,
    exec .tmroff s = .next { s with use_timer := false, phase := .fc } ∧
    exec .tmron s = .next { s with use_timer := true, timer_ready := true, phase := .fc }

/-- 44_cmd_timing.md R216 (D21, D27): ALCFG enables the autolatch for every non-zero flag byte, stores the select byte, and nothing else. -/
def Obligations.AlcfgSetsEnableAndSelect : Prop :=
  ∀ (en sel : Byte) (s : State), ∃ t, exec (.alcfg en sel) s = .next t ∧ (t.al_en = true ↔ en.toNat ≠ 0) ∧
    t = { s with al_en := t.al_en, al_clksel := sel, phase := .fc }

/-- 44_cmd_timing.md R211 to R217, 30_encoding.md R93, R94, 20_memory.md R63: the timing frames, from their bytes as fetched, whatever
follows them up to 64 bytes: 16-bit values big-endian at bytes 1 and 2, 8-bit values at byte 1. -/
def Obligations.TimingFramesTakeEffectFromTheirBytes : Prop :=
  ∀ (s u : State) (x y : Byte) (extra : List Byte), s.nextEvent = (.engine, u) → u.phase = .cmd → u.cfg = true →
    (u.rxFrame? = some (0xA1#8 :: x :: y :: extra) → extra.length ≤ 61 →
      ∃ t, step s = .next t ∧ t.win_offset1.toNat = x.toNat * 256 + y.toNat ∧ t.win_offset2 = u.win_offset2) ∧
    (u.rxFrame? = some (0xA2#8 :: extra) → extra.length ≤ 63 →
      ∃ t, step s = .next t ∧ t.use_timer = false ∧ t.timer_ready = u.timer_ready) ∧
    (u.rxFrame? = some (0xA3#8 :: extra) → extra.length ≤ 63 →
      ∃ t, step s = .next t ∧ t.use_timer = true ∧ t.timer_ready = true) ∧
    (u.rxFrame? = some (0xA4#8 :: x :: extra) → extra.length ≤ 62 →
      ∃ t, step s = .next t ∧ t.clk_div1.toNat = x.toNat ∧ t.clk_div2 = u.clk_div2) ∧
    (u.rxFrame? = some (0xB4#8 :: x :: extra) → extra.length ≤ 62 →
      ∃ t, step s = .next t ∧ t.clk_div2.toNat = x.toNat ∧ t.clk_div1 = u.clk_div1) ∧
    (u.rxFrame? = some (0xC0#8 :: x :: y :: extra) → extra.length ≤ 61 →
      ∃ t, step s = .next t ∧ (t.al_en = true ↔ x.toNat ≠ 0) ∧ t.al_clksel.toNat = y.toNat) ∧
    (u.rxFrame? = some (0xC1#8 :: x :: extra) → extra.length ≤ 62 →
      ∃ t, step s = .next t ∧ t.al_width.toNat = x.toNat ∧ t.al_div.toNat = x.toNat)

/-! ### The command-mode and liveness commands -/

/-- 45_cmd_mode.md R231 (D17, D23): ARM stores the tick and sets the arm; it never changes `mode`, nor anything else. -/
def Obligations.ArmSetsTheTick : Prop :=
  (∀ (v : Word) (s : State), exec (.arm v) s = .next { s with cmd_mode_start := v, cmd_armed := true, phase := .fc }) ∧
  (∀ (s u : State) (hi lo : Byte) (extra : List Byte), s.nextEvent = (.engine, u) → u.phase = .cmd → u.cfg = true →
    u.rxFrame? = some (0xD0#8 :: hi :: lo :: extra) → extra.length ≤ 61 →
    ∃ t, step s = .next t ∧ t.cmd_mode_start.toNat = hi.toNat * 256 + lo.toNat ∧ t.cmd_armed = true ∧ t.mode = u.mode)

/-- 45_cmd_mode.md R232, 41_mode_state_machine.md R147 (D18): RESYNC sets `no_data`, moves the read cursor to the write cursor (all 16 bits), leaves
CommandMode for Playing and no other mode, goes to `PING_TX`, and changes nothing else. -/
def Obligations.ResyncDropsTheBacklog : Prop :=
  ∀ s : State, ∃ t, exec .resync s = .next t ∧ t.occupied = 0 ∧
    (s.mode = .commandMode → t.mode = .playing) ∧ (s.mode ≠ .commandMode → t.mode = s.mode) ∧
    t = { s with no_data := true, read_index := s.write_index, mode := t.mode, phase := .pingTx }

/-- 45_cmd_mode.md R233: PING behaves the same in every mode and changes no state element besides `phase`; the pong follows once the
transport is ready. -/
def Obligations.PingChangesOnlyPhase : Prop :=
  (∀ s : State, exec .ping s = .next { s with phase := .pingTx } ∧
    (s.agenda = [] → s.tx_ready = true →
      step { s with phase := .pingTx } = .next { s with phase := .fc, tx_sent := s.tx_sent ++ [0xFF#8] })) ∧
  (∀ (s u : State) (extra : List Byte), s.nextEvent = (.engine, u) → u.phase = .cmd → u.cfg = true →
    u.rxFrame? = some (0xFF#8 :: extra) → extra.length ≤ 63 →
    step s = .next { u.checkConfig.fetch (0xFF#8 :: extra) with phase := .pingTx })

/-- 45_cmd_mode.md R232, R234: a Resync frame always has both effects, in two Engine steps: the read cursor at the write cursor, and
the byte `0xFF`. -/
def Obligations.ResyncFrameAlwaysPings : Prop :=
  ∀ (s : State) (extra : List Byte), s.agenda = [] → s.phase = .cmd → s.cfg = true → s.tx_ready = true →
    s.rxFrame? = some (0xD1#8 :: extra) → extra.length ≤ 63 →
    ∃ t, Sys2Proof.core.run 2 s = .next t ∧ t.read_index = s.write_index ∧ t.write_index = s.write_index ∧
      t.tx_sent = s.tx_sent ++ [0xFF#8] ∧ t.no_data = true ∧ t.phase = .fc ∧
      t.fc_outstanding = s.fc_outstanding ∧ t.ack_pending = s.ack_pending

/-- 45_cmd_mode.md R234 (D6): phase `PING_TX` sends one byte `0xFF` when `tx_ready`, and waits otherwise. -/
def Obligations.PingTxSendsPong : Prop :=
  ∀ s u : State, s.nextEvent = (.engine, u) → u.phase = .pingTx →
    step s = .next (if u.tx_ready = true then { u with tx_sent := u.tx_sent ++ [0xFF#8], phase := .fc } else u)

/-! ### Load and Bulk Append -/

/-- 43_cmd_data.md R195 (D10, D11, D21, D31): in `Idle`, with each of `ports`, `databits`, `lines` 1 or 2, LOAD takes over its operands, sets
`4*blocksize` round trips, and goes to `LOAD_TX` in mode `Loading`; nothing else changes, not the indices either. -/
def Obligations.LoadIsAccepted : Prop :=
  ∀ (p d l ut : Byte) (s : State), s.mode = .idle → p.toNat ∈ [1, 2] → d.toNat ∈ [1, 2] → l.toNat ∈ [1, 2] →
    ∃ t, exec (.load p d l ut) s = .next t ∧
      t.ports.toNat = p.toNat ∧ t.databits.toNat = d.toNat ∧ t.lines.toNat = l.toNat ∧
      (t.use_timer = true ↔ ut.toNat ≠ 0) ∧
      t.blocksize.toNat = p.toNat * d.toNat * l.toNat ∧ t.load_trips.toNat = 4 * (p.toNat * d.toNat * l.toNat) ∧
      t.layoutLoaded ∧
      t = { s with
        ports := t.ports, databits := t.databits, lines := t.lines, use_timer := t.use_timer, blocksize := t.blocksize,
        load_trips := t.load_trips, mode := .loading, phase := .loadTx }

/-- 43_cmd_data.md R195, 60_exceptions.md R245, R250(c) (D10, D11): outside `Idle` every LOAD is dropped as E3, whatever its operands; in `Idle` one with
an operand that is not 1 or 2 is dropped as E2. Nothing changes but `phase` (and the ghost record, log 9). -/
def Obligations.LoadIsDropped : Prop :=
  ∀ (p d l ut : Byte) (s : State),
    (s.mode ≠ .idle → exec (.load p d l ut) s = .next { s with phase := .fc, raised := s.raised ++ [.loadNotIdle] }) ∧
    (s.mode = .idle → ¬ (p.toNat ∈ [1, 2] ∧ d.toNat ∈ [1, 2] ∧ l.toNat ∈ [1, 2]) →
      exec (.load p d l ut) s = .next { s with phase := .fc, raised := s.raised ++ [.malformedPayload] })

/-- 43_cmd_data.md R199, R194, 40_ring_buffer.md R125, R122 (D14, D32): with a layout loaded and whole blocks, APPEND completes in every mode. The first
`min m free_space()` Frames go, in wire order, to the slots from `slot(write_index)` on; every other slot reads as before, and so does every
byte of the command buffer; `write_index` advances by their number; `fc_outstanding` is cleared, also when Frames were dropped. -/
def Obligations.AppendStoresFramesInOrder : Prop :=
  ∀ (payload : List Byte) (s : State), s.blocksize ≠ 0 → payload.length % s.blocksize.toNat = 0 →
    ∃ t n, exec (.append payload) s = .next t ∧
      n = min (payload.length / s.blocksize.toNat) s.freeSpace ∧
      (∀ j, j < n → t.ringRead (s.slot (s.write_index + BitVec.ofNat Config.IDXW j)) =
        decodeBlock s.ports.toNat s.lines.toNat s.databits.toNat
          ((payload.drop (j * s.blocksize.toNat)).take s.blocksize.toNat)) ∧
      (∀ a, (∀ j, j < n → s.slot (s.write_index + BitVec.ofNat Config.IDXW j) ≠ a) → t.ringRead a = s.ringRead a) ∧
      (∀ i, t.cbufRead i = s.cbufRead i) ∧
      t.occupied = s.occupied + n ∧
      t = { s with
        ring := t.ring, write_index := s.write_index + BitVec.ofNat Config.IDXW n, fc_outstanding := false, phase := .fc,
        no_data := if s.params.noDataClearOnPush = true ∧ 0 < n then false else s.no_data,
        raised := if s.freeSpace < payload.length / s.blocksize.toNat then s.raised ++ [.overrun] else s.raised }

/-- 43_cmd_data.md R200 (D9, D13): without a layout, or when the payload ends inside a block, APPEND is dropped: nothing is pushed and
`fc_outstanding` is not cleared. -/
def Obligations.MalformedAppendIsDropped : Prop :=
  ∀ (payload : List Byte) (s : State), s.blocksize = 0 ∨ payload.length % s.blocksize.toNat ≠ 0 →
    exec (.append payload) s = .next { s with phase := .fc, raised := s.raised ++ [.malformedPayload] }

/-- 20_memory.md R64: a channel word is its bytes most significant first; a single byte goes to the upper 8 bits and the lower 8 bits are
zero, so that byte `0xAB` gives `0xAB00`. For the pair `(P, L)` of every layout, and through APPEND with one port and one line. -/
def Obligations.ChannelWordBytePlacement : Prop :=
  (∀ (p l P L : Nat) (block : List Byte) (b0 b1 : Byte), p ∈ [1, 2] → l ∈ [1, 2] → 1 ≤ P → P ≤ p → L < l →
    (block[((P - 1) * l + L) * 2]? = some b0 → block[((P - 1) * l + L) * 2 + 1]? = some b1 →
      (channelAt (decodeBlock p l 2 block) P L).toNat = b0.toNat * 256 + b1.toNat) ∧
    (block[(P - 1) * l + L]? = some b0 → (channelAt (decodeBlock p l 1 block) P L).toNat = b0.toNat * 256)) ∧
  (∀ (s t : State) (b0 b1 : Byte), s.ports = 1 → s.lines = 1 → 0 < s.freeSpace →
    (s.databits = 2 → s.blocksize = 2 → exec (.append [b0, b1]) s = .next t →
      (t.ringRead (s.slot s.write_index)).ch0.toNat = b0.toNat * 256 + b1.toNat) ∧
    (s.databits = 1 → s.blocksize = 1 → exec (.append [b0]) s = .next t →
      (t.ringRead (s.slot s.write_index)).ch0.toNat = b0.toNat * 256 ∧
      (b0 = 0xAB → (t.ringRead (s.slot s.write_index)).ch0 = 0xAB00)))

/-- 30_encoding.md R99 (derived there from R98 and R64): the eight block layouts, written out. -/
def Obligations.EightBlockLayouts : Prop :=
  ∀ B0 B1 B2 B3 B4 B5 B6 B7 : Byte,
    decodeBlock 1 1 1 [B0] = ⟨be16 B0 0, 0xFFFF, 0xFFFF, 0xFFFF⟩ ∧
    decodeBlock 1 1 2 [B0, B1] = ⟨be16 B0 B1, 0xFFFF, 0xFFFF, 0xFFFF⟩ ∧
    decodeBlock 1 2 1 [B0, B1] = ⟨be16 B0 0, be16 B1 0, 0xFFFF, 0xFFFF⟩ ∧
    decodeBlock 1 2 2 [B0, B1, B2, B3] = ⟨be16 B0 B1, be16 B2 B3, 0xFFFF, 0xFFFF⟩ ∧
    decodeBlock 2 1 1 [B0, B1] = ⟨be16 B0 0, 0xFFFF, be16 B1 0, 0xFFFF⟩ ∧
    decodeBlock 2 1 2 [B0, B1, B2, B3] = ⟨be16 B0 B1, 0xFFFF, be16 B2 B3, 0xFFFF⟩ ∧
    decodeBlock 2 2 1 [B0, B1, B2, B3] = ⟨be16 B0 0, be16 B1 0, be16 B2 0, be16 B3 0⟩ ∧
    decodeBlock 2 2 2 [B0, B1, B2, B3, B4, B5, B6, B7] = ⟨be16 B0 B1, be16 B2 B3, be16 B4 B5, be16 B6 B7⟩

/-- 43_cmd_data.md R193 (the source's property "Decode round trip"), 30_encoding.md R98: for every legal layout, decoding the block of a Frame the
layout can carry gives the Frame back. -/
def Obligations.BlockDecodeInvertsEncode : Prop :=
  ∀ (p l d : Nat) (f : Frame), p ∈ [1, 2] → l ∈ [1, 2] → d ∈ [1, 2] → frameFits p l d f →
    (encodeBlock p l d f).length = p * d * l ∧ decodeBlock p l d (encodeBlock p l d f) = f

/-! ### The ring -/

/-- 40_ring_buffer.md R121: `slot(i) = i mod CAP`, which is the low `log2(CAP)` bits of `i`; consecutive indices use consecutive slots, slot
`CAP-1` is followed by slot 0, and so is the 16-bit wrap. -/
def Obligations.SlotIsIndexModCap : Prop :=
  ∀ (s : State) (i : Word),
    s.slot i = i.toNat % s.cap ∧ s.slot i = i.toNat &&& (s.cap - 1) ∧ s.slot i < s.cap ∧
    s.slot (i + 1) = (if s.slot i = s.cap - 1 then 0 else s.slot i + 1) ∧
    s.slot 0xFFFF = s.cap - 1 ∧ s.slot 0 = 0 ∧ (s.cap = 128 → s.slot 0x0085 = 5)

/-- 40_ring_buffer.md R126, R127, R132(b): occupancy is the true difference of the indices reduced modulo `CAP`; free space is `CAP - 1` minus it,
and equals `(read_index - write_index - 1)` masked with `CAP - 1`. -/
def Obligations.OccupancyFromIndices : Prop :=
  ∀ s : State,
    (s.occupied : Int) = ((s.write_index.toNat : Int) - (s.read_index.toNat : Int)) % (s.cap : Int) ∧
    s.occupied ≤ s.cap - 1 ∧ s.freeSpace + s.occupied = s.cap - 1 ∧
    s.freeSpace = (s.read_index - s.write_index - 1).toNat &&& (s.cap - 1)

/-- 40_ring_buffer.md R129: the ring is empty exactly when the indices agree modulo `CAP`, full exactly when no space is free; a full ring holds
`CAP - 1` Frames, and then no event but power-up writes a slot, not the reserved one either. -/
def Obligations.EmptyAndFull : Prop :=
  ∀ s : State,
    (s.occupied = 0 ↔ s.write_index.toNat % s.cap = s.read_index.toNat % s.cap) ∧
    (s.occupied = 0 ↔ s.freeSpace = s.cap - 1) ∧
    (s.occupied = s.cap - 1 ↔ s.freeSpace = 0) ∧
    (s.freeSpace = 0 → s.unread.length = s.cap - 1 ∧
      ∀ t, step s = .next t → s.nextEvent.1 ≠ .powerUp → ∀ a, t.ringRead a = s.ringRead a)

/-- 40_ring_buffer.md R120 to R128 (R128 derived there): the ring is a bounded FIFO queue of Frames. Every step leaves the queue of unread Frames as
it was, appends Frames at its end (only the Engine, by a Bulk Append in `CMD` or a batch in `LOAD_RX`, and never more than were free), takes its head (a latch event on a
non-empty ring), or empties it (a Reset or Resync frame in `CMD`, or power-up). A latch event on an empty ring is the underrun, outside this statement. -/
def Obligations.RingIsABoundedQueue : Prop :=
  ∀ s t : State, step s = .next t → ¬ (s.nextEvent.1 = .latch ∧ s.occupied = 0) →
    (s.occupied ≠ 0 → s.unread.head? = some s.peekCurrent) ∧ s.unread.length = s.occupied ∧
    (s.nextEvent.1 = .latch → t.unread = s.unread.tail) ∧
    (s.nextEvent.1 = .powerUp → t.unread = []) ∧
    (s.nextEvent.1 = .engine →
      (s.phase = .cmd ∧ t.unread = [] ∧ ∃ f, s.rxFrame? = some f ∧ (decode f = .instr .reset ∨ decode f = .instr .resync)) ∨
      ∃ fs, t.unread = s.unread ++ fs ∧ fs.length ≤ s.freeSpace ∧ (fs ≠ [] → s.phase = .loadRx ∨
        (s.phase = .cmd ∧ ∃ f payload, s.rxFrame? = some f ∧ decode f = .instr (.append payload)))) ∧
    (s.nextEvent.1 ≠ .latch → s.nextEvent.1 ≠ .powerUp → s.nextEvent.1 ≠ .engine → t.unread = s.unread)

/-- 40_ring_buffer.md R130, 60_exceptions.md R244: a latch event on an empty ring still advances the index, and the ring then looks full; later batches are
wholly discarded. (R130 is derived in the spec.) -/
def Obligations.UnderrunLooksFull : Prop :=
  ∀ s u : State, s.nextEvent = (.latch, u) → u.occupied = 0 →
    ∃ t, step s = .next t ∧ t.read_index = u.read_index + 1 ∧ t.occupied = u.cap - 1 ∧ t.freeSpace = 0 ∧
      (∀ a, t.ringRead a = u.ringRead a) ∧
      ∀ payload t', exec (.append payload) t = .next t' → t'.write_index = t.write_index

/-! ### The latch event -/

/-- 41_mode_state_machine.md R146, 40_ring_buffer.md R124 (D15, D16, D17): the whole latch event. The test uses the new `read_index`, all 16 bits. -/
def Obligations.LatchEventEffect : Prop :=
  ∀ s u : State, s.nextEvent = (.latch, u) → ∃ t, step s = .next t ∧
    t = { u with
      read_index := u.read_index + 1
      mode := if u.mode = .playing ∧ u.cmd_armed = true ∧ u.read_index + 1 = u.cmd_mode_start then .commandMode else u.mode
      ack_pending := if u.mode = .playing ∧ u.cmd_armed = true ∧ u.read_index + 1 = u.cmd_mode_start then true else u.ack_pending
      cmd_armed := if u.mode = .playing ∧ u.cmd_armed = true ∧ u.read_index + 1 = u.cmd_mode_start then false else u.cmd_armed
      raised := if u.write_index.toNat % u.cap = u.read_index.toNat % u.cap then u.raised ++ [.underrun] else u.raised }

/-- 60_exceptions.md R249: each occurrence of the latch event is applied at once and completely, in every mode and whatever the Engine waits for; two
occurrences are two events. `State.latch` is the whole effect, which `LatchEventEffect` states. -/
def Obligations.LatchEventsAreNeverBlocked : Prop :=
  ∀ (s : State) (rest : List Event),
    (s.agenda = .latch :: rest →
      step s = .next (State.latch { s with agenda := rest }) ∧ (State.latch { s with agenda := rest }).read_index = s.read_index + 1) ∧
    (s.agenda = .latch :: .latch :: rest →
      ∃ t, Sys2Proof.core.run 2 s = .next t ∧ t.agenda = rest ∧ t.read_index = s.read_index + 2)

/-! ### The poll loop -/

/-- 42_engine_loop.md R167, R170, R171 (D7, D8): in phase `CMD`, with the link configured and a frame of at most 64 bytes waiting that decodes to a
command, the step is that command's meaning on the state after the configuration check and the fetch. -/
def Obligations.StepRunsTheFetchedCommand : Prop :=
  ∀ (s u : State) (f : List Byte) (i : Instr), s.nextEvent = (.engine, u) → u.phase = .cmd → u.cfg = true →
    u.rxFrame? = some f → f.length ≤ 64 → decode f = .instr i → step s = exec i (u.checkConfig.fetch f)

/-- 42_engine_loop.md R170, 10_state.md R26 (D8): the fetch takes the oldest frame out of the Transport and puts its bytes, in order, in `cbuf[0 ..]`;
`cnt` is their number; the bytes beyond keep their values and nothing else changes. -/
def Obligations.FetchFillsCommandBuffer : Prop :=
  ∀ (u : State) (f : List Byte), f.length ≤ 64 →
    (u.fetch f).frame = f ∧ (u.fetch f).cnt.toNat = f.length ∧ (u.fetch f).rx_queue = u.rx_queue.tail ∧
    (∀ i, f.length ≤ i → (u.fetch f).cbufRead i = u.cbufRead i) ∧
    u.fetch f = { u with rx_queue := (u.fetch f).rx_queue, cbuf := (u.fetch f).cbuf, cnt := (u.fetch f).cnt }

/-- 42_engine_loop.md R167, R168 (D7): with no frame to fetch, or the link not configured, the `CMD` step goes to `FC`; the configuration-change check is
made first, whatever `cfg` is, and its `Reinit()` changes no state of the core. -/
def Obligations.CmdStepWithoutFrame : Prop :=
  ∀ s u : State, s.nextEvent = (.engine, u) → u.phase = .cmd → u.cfg = false ∨ u.rxValid = false →
    step s = .next { u with phase := .fc, reinits := if u.cfg_changed = true then u.reinits + 1 else u.reinits }

/-- 42_engine_loop.md R162 (D20): the flow-control decision: a level, strict, in `Playing` only. -/
def Obligations.FlowControlDecision : Prop :=
  ∀ s u : State, s.nextEvent = (.engine, u) → u.phase = .fc →
    step s = .next { u with phase :=
      if u.cfg = true ∧ u.mode = .playing ∧ u.fc_outstanding = false ∧ 65 < u.freeSpace then .fcTx else .ack }

/-- 42_engine_loop.md R163, R166, 43_cmd_data.md R196 (D6): the three other sending phases send their one byte when `tx_ready`, and wait otherwise; only
`FC_TX` sets `fc_outstanding`, only `ACK_TX` clears `ack_pending`. -/
def Obligations.SendingPhases : Prop :=
  ∀ s u : State, s.nextEvent = (.engine, u) →
    (u.phase = .fcTx → step s = .next (if u.tx_ready = true then
      { u with tx_sent := u.tx_sent ++ [0x0F#8], fc_outstanding := true, phase := .ack } else u)) ∧
    (u.phase = .ackTx → step s = .next (if u.tx_ready = true then
      { u with tx_sent := u.tx_sent ++ [0x0D#8], ack_pending := false, phase := .cmd } else u)) ∧
    (u.phase = .loadTx → step s = .next (if u.tx_ready = true then
      { u with tx_sent := u.tx_sent ++ [0x0F#8], phase := .loadRx } else u))

/-- 42_engine_loop.md R165: the acknowledgement decision looks at `cfg` and `ack_pending`, not at `mode`, and writes nothing but `phase`; Reset clears
the flag, Resync does not. -/
def Obligations.AcknowledgeDecision : Prop :=
  ∀ s u : State, s.nextEvent = (.engine, u) → u.phase = .ack →
    step s = .next { u with phase := if u.cfg = true ∧ u.ack_pending = true then .ackTx else .cmd } ∧
    (∀ m, ∃ t t', runEvent .engine u = .next t ∧ runEvent .engine { u with mode := m } = .next t' ∧ t'.phase = t.phase) ∧
    (∀ t, exec .reset u = .next t → t.ack_pending = false) ∧ (∀ t, exec .resync u = .next t → t.ack_pending = u.ack_pending)

/-- 43_cmd_data.md R197, R198, 30_encoding.md R100 (D12, D26): the step in `LOAD_RX` pushes exactly what Bulk Append would push of the same payload, whatever byte
0 is; a malformed batch counts too; after the last round trip `cur_frame` is the current Frame and `mode` is `Playing`. -/
def Obligations.LoadBatchStep : Prop :=
  ∀ (s u v w : State) (f : List Byte), s.nextEvent = (.engine, u) → u.phase = .loadRx → u.rxFrame? = some f → f.length ≤ 64 →
    v = u.fetch f → exec (.append f.tail) v = .next w →
    step s = .next (if u.load_trips = 1
      then { w with load_trips := 0, cur_frame := w.ringRead (w.slot w.read_index), mode := .playing, phase := .fc }
      else { w with load_trips := u.load_trips - 1, phase := .loadTx })

/-- 42_engine_loop.md R175 (D6): while its condition does not hold, a waiting Engine changes nothing at all. -/
def Obligations.BlockedEngineWaits : Prop :=
  ∀ s u : State, s.nextEvent = (.engine, u) →
    (u.tx_ready = false ∧ (u.phase = .fcTx ∨ u.phase = .ackTx ∨ u.phase = .pingTx ∨ u.phase = .loadTx)) ∨
      (u.rxValid = false ∧ u.phase = .loadRx) →
    step s = .next u

/-- 42_engine_loop.md R161, 60_exceptions.md R246 (D7): while `cfg = 0` the three loop steps go round `FC`, `ACK`, `CMD`, send nothing, fetch nothing and
change nothing but `phase`; only the configuration-change check of the `CMD` step is still made, always. A disconnect or a reconnect changes nothing but
`cfg` itself, and a latch event is applied whatever `cfg` is. -/
def Obligations.DisconnectedEngineIdles : Prop :=
  (∀ s u : State, s.nextEvent = (.engine, u) → u.cfg = false →
    (u.phase = .fc → step s = .next { u with phase := .ack }) ∧
    (u.phase = .ack → step s = .next { u with phase := .cmd }) ∧
    (u.phase = .cmd → step s = .next { u with phase := .fc, reinits := if u.cfg_changed = true then u.reinits + 1 else u.reinits })) ∧
  (∀ (s u : State) (level : Bool), s.nextEvent = (.setCfg level, u) → step s = .next { u with cfg := level }) ∧
  (∀ (s u : State) (level : Bool), s.nextEvent = (.latch, u) →
    ∃ t, step s = .next t ∧ step { s with cfg := level } = .next { t with cfg := level })

/-- 42_engine_loop.md R176 (D4): an idle Engine cycles `FC`, `ACK`, `CMD` for ever without changing any other state: from `FC` it goes to `ACK`, from
`ACK` to `CMD`, from `CMD` to `FC`, and it stays idle. What counts as idle where R176 does not say, an acknowledgement pending on a disconnected link
among it, is the model's choice (log 18, DESIGN CHOICE). -/
def Obligations.QuiescentEngineIsSilent : Prop :=
  ∀ s : State, s.quiescent →
    (s.phase = .fc → step s = .next { s with phase := .ack } ∧ ({ s with phase := .ack } : State).quiescent) ∧
    (s.phase = .ack → step s = .next { s with phase := .cmd } ∧ ({ s with phase := .cmd } : State).quiescent) ∧
    (s.phase = .cmd → step s = .next { s with phase := .fc } ∧ ({ s with phase := .fc } : State).quiescent) ∧
    (∀ n, Sys2Proof.core.run (3 * n) s = .next s)

/-- 60_exceptions.md R250(a), 42_engine_loop.md R160: in one iteration with a request, an acknowledgement and a Ping all due, the bytes sent are `0F`, `0D`, `FF`, in
this order. -/
def Obligations.OneIterationSendsInOrder : Prop :=
  ∀ (s : State) (extra : List Byte), s.agenda = [] → s.phase = .fc → s.requestDue = true → s.ack_pending = true → s.tx_ready = true →
    s.rxFrame? = some (0xFF#8 :: extra) → extra.length ≤ 63 →
    ∃ t, Sys2Proof.core.run 6 s = .next t ∧ t.tx_sent = s.tx_sent ++ [0x0F#8, 0x0D#8, 0xFF#8] ∧ t.phase = .fc ∧
      t.fc_outstanding = true ∧ t.ack_pending = false ∧ t.rx_queue = s.rx_queue.tail

/-! ### Rules about the whole machine -/

/-- 30_encoding.md R108: the device sends single bytes only, never without `tx_ready`, and each of the three bytes only from its phases: `0F` from `FC_TX` and
`LOAD_TX`, `0D` from `ACK_TX`, `FF` from `PING_TX`; in those phases, with `tx_ready`, it does send. -/
def Obligations.SentBytesComeFromTheirPhases : Prop :=
  ∀ s t : State, step s = .next t →
    (t.tx_sent = s.tx_sent ∧ ¬ (s.nextEvent.1 = .engine ∧ s.tx_ready = true ∧
        (s.phase = .fcTx ∨ s.phase = .ackTx ∨ s.phase = .pingTx ∨ s.phase = .loadTx))) ∨
    (s.nextEvent.1 = .engine ∧ s.tx_ready = true ∧
      ((t.tx_sent = s.tx_sent ++ [0x0F#8] ∧ (s.phase = .fcTx ∨ s.phase = .loadTx)) ∨
       (t.tx_sent = s.tx_sent ++ [0x0D#8] ∧ s.phase = .ackTx) ∨
       (t.tx_sent = s.tx_sent ++ [0xFF#8] ∧ s.phase = .pingTx)))

/-- 41_mode_state_machine.md R141 to R148 (D11, D16, D18): every change of `mode`, over all steps from states that meet the invariant. -/
def Obligations.ModeTransitions : Prop :=
  ∀ s t : State, s.Inv → step s = .next t → t.mode ≠ s.mode →
    (t.mode = .idle ∧ (s.nextEvent.1 = .powerUp ∨ (s.nextEvent.1 = .engine ∧ s.phase = .cmd ∧ s.mode ≠ .loading ∧
      ∃ f, s.rxFrame? = some f ∧ decode f = .instr .reset))) ∨
    (t.mode = .loading ∧ s.mode = .idle ∧ s.nextEvent.1 = .engine ∧ s.phase = .cmd ∧ t.phase = .loadTx ∧
      ∃ f p d l ut, s.rxFrame? = some f ∧ decode f = .instr (.load p d l ut)) ∨
    (t.mode = .playing ∧ s.nextEvent.1 = .engine ∧
      ((s.mode = .loading ∧ s.phase = .loadRx ∧ s.load_trips = 1) ∨
       (s.mode = .commandMode ∧ s.phase = .cmd ∧ ∃ f, s.rxFrame? = some f ∧ decode f = .instr .resync))) ∨
    (t.mode = .commandMode ∧ s.mode = .playing ∧ s.nextEvent.1 = .latch ∧ s.cmd_armed = true ∧
      t.read_index = s.cmd_mode_start ∧ t.ack_pending = true ∧ t.cmd_armed = false)

/-- 41_mode_state_machine.md R142: the only exit from `Idle` is an accepted Load, to `Loading`; every other command leaves `mode` as it is, and Bulk
Append is dropped there, since no layout is loaded. -/
def Obligations.IdleIsLeftOnlyByLoad : Prop :=
  (∀ s t : State, s.Inv → step s = .next t → s.mode = .idle → t.mode ≠ .idle → t.mode = .loading ∧ s.nextEvent.1 = .engine ∧
    ∃ f p d l ut, s.rxFrame? = some f ∧ decode f = .instr (.load p d l ut) ∧ p.toNat ∈ [1, 2] ∧ d.toNat ∈ [1, 2] ∧ l.toNat ∈ [1, 2]) ∧
  (∀ (i : Instr) (s : State), s.mode = .idle → i.op ≠ .load → ∃ t, exec i s = .next t ∧ t.mode = .idle) ∧
  (∀ (p d l ut : Byte) (s : State), s.mode = .idle → p.toNat ∈ [1, 2] → d.toNat ∈ [1, 2] → l.toNat ∈ [1, 2] →
    ∃ t, exec (.load p d l ut) s = .next t ∧ t.mode = .loading) ∧
  (∀ (payload : List Byte) (s : State), s.Inv → s.mode = .idle →
    exec (.append payload) s = .next { s with phase := .fc, raised := s.raised ++ [.malformedPayload] })

/-- 60_exceptions.md R247: after a frame that raises E1, E2 or E3 in `CMD`, the state is bit for bit what it was before the frame, apart from `cbuf`, `cnt` and
`phase` (the frame has left the Transport; `raised` is the model's ghost record, log 9). -/
def Obligations.DroppedFrameLeavesNoTrace : Prop :=
  ∀ (s u t : State) (f : List Byte), s.nextEvent = (.engine, u) → u.phase = .cmd → u.cfg = true → u.cfg_changed = false →
    u.rxFrame? = some f → step s = .next t →
    t.raised = u.raised ++ [.unknownOpcode] ∨ t.raised = u.raised ++ [.malformedPayload] ∨ t.raised = u.raised ++ [.loadNotIdle] →
    t = { u with cbuf := t.cbuf, cnt := t.cnt, phase := .fc, rx_queue := u.rx_queue.tail, raised := t.raised }

/-- 43_cmd_data.md R203, 41_mode_state_machine.md R143: during a Load the Engine is only ever in the two Load phases; no acknowledgement is served, no
configuration change is noticed, no command is executed: the only state it writes is the ring, its flags, the round trips, and at completion `mode`
and `cur_frame`. -/
def Obligations.LoadBlocksTheLoop : Prop :=
  ∀ s u t : State, s.Inv → s.nextEvent = (.engine, u) → u.mode = .loading → step s = .next t →
    ((t.mode = .loading ∧ (t.phase = .loadTx ∨ t.phase = .loadRx)) ∨ (t.mode = .playing ∧ t.phase = .fc ∧ u.load_trips = 1)) ∧
    t = { u with
      ring := t.ring, write_index := t.write_index, phase := t.phase, load_trips := t.load_trips, cbuf := t.cbuf, cnt := t.cnt, mode := t.mode,
      cur_frame := t.cur_frame, fc_outstanding := t.fc_outstanding, no_data := t.no_data, rx_queue := t.rx_queue,
      tx_sent := t.tx_sent, raised := t.raised }

/-- 10_state.md R46, 20_memory.md R74 (R46 derived there), 60_exceptions.md R256 (D33): who writes what. A latch event writes `read_index`, `mode`,
`ack_pending`, `cmd_armed` and nothing else of the core. The Engine writes `read_index` in two commands only, each executed in `CMD` with the link configured:
Reset, by a store of 0, and Resync, by a store of `write_index`. The Host and the Transport write no state of the core; a frame on offer over a configured
link stays on offer until the Engine takes it (or power-up), and the Engine takes at most that one, in `CMD` or `LOAD_RX`. -/
def Obligations.WritersOfSharedState : Prop :=
  ∀ s t : State, step s = .next t →
    (s.nextEvent.1 = .latch → t = { s with
      agenda := s.agenda.tail, read_index := t.read_index, mode := t.mode, ack_pending := t.ack_pending, cmd_armed := t.cmd_armed, raised := t.raised }) ∧
    (s.nextEvent.1 = .engine → t.read_index = s.read_index ∨ (s.phase = .cmd ∧ s.cfg = true ∧ ∃ f, s.rxFrame? = some f ∧
      ((decode f = .instr .reset ∧ t.read_index = 0) ∨ (decode f = .instr .resync ∧ t.read_index = s.write_index)))) ∧
    (s.nextEvent.1 = .engine → t.rx_hold = s.rx_hold ∧ (t.rx_queue = s.rx_queue ∨
      (t.rx_queue = s.rx_queue.tail ∧ s.rxValid = true ∧ ((s.phase = .cmd ∧ s.cfg = true) ∨ s.phase = .loadRx)))) ∧
    (s.nextEvent.1 ≠ .latch → s.nextEvent.1 ≠ .engine → s.nextEvent.1 ≠ .powerUp → t = { s with
      agenda := s.agenda.tail, cfg := t.cfg, cfg_changed := t.cfg_changed, tx_ready := t.tx_ready, rx_hold := t.rx_hold,
      rx_queue := t.rx_queue }) ∧
    (∀ f, s.cfg = true → s.rxFrame? = some f → s.nextEvent.1 ≠ .engine → s.nextEvent.1 ≠ .powerUp → t.rxFrame? = some f) ∧
    t.params = s.params

/-- 42_engine_loop.md R164 (derived there): while a request is outstanding, no step outside a Load sends another `0x0F`. -/
def Obligations.OneRequestAtATime : Prop :=
  ∀ s t : State, s.Inv → step s = .next t → s.fc_outstanding = true → s.mode ≠ .loading →
    t.tx_sent ≠ s.tx_sent ++ [0x0F#8] ∧ t.phase ≠ .fcTx ∧
    (t.fc_outstanding = true ∨ s.nextEvent.1 = .powerUp ∨
      ∃ f, s.rxFrame? = some f ∧ (decode f = .instr .reset ∨ ∃ payload, decode f = .instr (.append payload)))

/-- 10_state.md R26 (D8, D9): bytes left over from an earlier frame never influence behaviour: two states that differ only in `cbuf` and `cnt` step alike, and
after a fetch they hold the same frame. -/
def Obligations.StaleBufferBytesNeverMatter : Prop :=
  ∀ (s : State) (m : List Host.Cell) (c : BitVec 7),
    (∃ t t', step s = .next t ∧ step { s with cbuf := m, cnt := c } = .next t' ∧ t.eraseBuffer = t'.eraseBuffer ∧
      (s.nextEvent.1 = .engine → t.rx_queue.length < s.rx_queue.length → t.frame = t'.frame)) ∨
    (∃ r, step s = .refused r ∧ step { s with cbuf := m, cnt := c } = .refused r)

/-- 43_cmd_data.md R195 to R198, 70_reset_and_hazards.md R274: from the Load frame in `Idle` with its `4*blocksize` batches waiting behind it, the Engine
alone, ready to send, reaches `Playing` after one step and two per round trip; it has sent `0F` once per round trip and consumed exactly the
batches; the layout is the Load's, and `cur_frame` is the current Frame. -/
def Obligations.LoadRunsToPlaying : Prop :=
  ∀ (s : State) (p d l ut : Byte) (extra : List Byte) (batches rest : List (List Byte)),
    s.agenda = [] → s.phase = .cmd → s.mode = .idle → s.cfg = true → s.tx_ready = true → s.rx_hold = false →
    p.toNat ∈ [1, 2] → d.toNat ∈ [1, 2] → l.toNat ∈ [1, 2] → extra.length ≤ 59 →
    s.rx_queue = (0x01#8 :: p :: d :: l :: ut :: extra) :: (batches ++ rest) →
    batches.length = 4 * (p.toNat * d.toNat * l.toNat) → (∀ f ∈ batches, f.length ≤ 64) →
    ∃ t, Sys2Proof.core.run (1 + 2 * batches.length) s = .next t ∧
      t.mode = .playing ∧ t.phase = .fc ∧ t.load_trips = 0 ∧ t.rx_queue = rest ∧
      t.tx_sent = s.tx_sent ++ List.replicate batches.length 0x0F#8 ∧
      t.ports.toNat = p.toNat ∧ t.databits.toNat = d.toNat ∧ t.lines.toNat = l.toNat ∧
      t.read_index = s.read_index ∧ t.cur_frame = t.peekCurrent ∧ t.ack_pending = s.ack_pending

end
end

