-- ==== Sys2Proof/Laws/Codec.lean ====
section
/-! SUPPORT. The laws of the opcode map and of big-endian values. -/

namespace Sys2Proof

/-- The opcode bytes are pairwise different, so the map reads each back. -/
theorem Op.ofByte_code (o : Op) : Op.ofByte o.code = some o := by cases o <;> decide

/-- The map has no other entries. -/
theorem Op.ofByte_some {b : Byte} {o : Op} (h : Op.ofByte b = some o) : b = o.code := by
  have := List.find?_some h
  exact (beq_iff_eq.mp this).symm

theorem Op.mem_all (o : Op) : o ∈ Op.all := by cases o <;> decide

theorem Op.ofByte_none {b : Byte} : Op.ofByte b = none ↔ ∀ o : Op, o.code ≠ b := by
  simp only [Op.ofByte, List.find?_eq_none, beq_iff_eq]
  exact ⟨fun h o => h o (Op.mem_all o), fun h o _ => h o⟩

@[simp] theorem decode_code (o : Op) (args : List Byte) : decode (o.code :: args) = decodeOperands o args := by
  rw [decode, Op.ofByte_code]

@[simp] theorem be16_toNat (hi lo : Byte) : (be16 hi lo).toNat = hi.toNat * 256 + lo.toNat := by
  have := lo.isLt
  rw [be16, BitVec.toNat_append, Nat.shiftLeft_eq, Nat.mul_comm, ← Nat.two_pow_add_eq_or_of_lt this]

@[simp] theorem hiByte_be16 (hi lo : Byte) : hiByte (be16 hi lo) = hi := by
  apply BitVec.eq_of_toNat_eq
  have := hi.isLt
  have := lo.isLt
  rw [hiByte, BitVec.extractLsb'_toNat, be16_toNat, Nat.shiftRight_eq_div_pow]
  omega

@[simp] theorem loByte_be16 (hi lo : Byte) : loByte (be16 hi lo) = lo := by
  apply BitVec.eq_of_toNat_eq
  have := lo.isLt
  rw [loByte, BitVec.extractLsb'_toNat, be16_toNat, Nat.shiftRight_eq_div_pow]
  omega

@[simp] theorem be16_bytes (v : Word) : be16 (hiByte v) (loByte v) = v := by
  apply BitVec.eq_of_toNat_eq
  have := v.isLt
  rw [be16_toNat, hiByte, loByte, BitVec.extractLsb'_toNat, BitVec.extractLsb'_toNat, Nat.shiftRight_eq_div_pow,
    Nat.shiftRight_eq_div_pow]
  omega

end Sys2Proof
end

