-- ==== Sys2Proof/Laws/Memory.lean ====
section
/-! SUPPORT. The laws of a memory in canonical form: read after write, and every operation keeps the form. -/

namespace Sys2Proof.Machine.Memory

variable {α : Type}

@[simp] theorem lookup_nil (a : Nat) : lookup ([] : List (Nat × α)) a = none := rfl

theorem lookup_cons (b : Nat) (v : α) (m : List (Nat × α)) (a : Nat) :
    lookup ((b, v) :: m) a = if b = a then some v else lookup m a := rfl

/-- A read after a write gives the value written there, and the old value everywhere else. -/
theorem lookup_write (m : List (Nat × α)) (a : Nat) (v : α) (c : Nat) :
    lookup (write m a v) c = if a = c then some v else lookup m c := by
  induction m with
  | nil => simp [write, lookup_cons]
  | cons p m ih =>
    obtain ⟨b, u⟩ := p
    by_cases h1 : a < b
    · simp [write, h1, lookup_cons]
    · by_cases h2 : a = b
      · subst h2
        by_cases h3 : a = c <;> simp [write, lookup_cons, h3]
      · rw [write, if_neg h1, if_neg h2, lookup_cons, lookup_cons, ih]
        by_cases h3 : b = c
        · subst h3
          simp [h2]
        · simp [h3]

@[simp] theorem lookup_write_same (m : List (Nat × α)) (a : Nat) (v : α) : lookup (write m a v) a = some v := by
  simp [lookup_write]

theorem lookup_write_other (m : List (Nat × α)) (v : α) {a c : Nat} (h : a ≠ c) :
    lookup (write m a v) c = lookup m c := by
  simp [lookup_write, h]

/-- A read after storing a list: the listed value inside the range, the old value outside it. -/
theorem lookup_writeList (vs : List α) (m : List (Nat × α)) (a c : Nat) :
    lookup (writeList m a vs) c = if a ≤ c ∧ c < a + vs.length then vs[c - a]? else lookup m c := by
  induction vs generalizing m a with
  | nil => rw [writeList, if_neg (by simp only [List.length_nil]; omega)]
  | cons v vs ih =>
    rw [writeList, ih, lookup_write]
    by_cases h1 : a = c
    · subst h1
      simp
    · by_cases h2 : a ≤ c ∧ c < a + (v :: vs).length
      · have h3 : a + 1 ≤ c ∧ c < a + 1 + vs.length := by simp at h2; omega
        have h4 : c - a = (c - (a + 1)) + 1 := by omega
        rw [if_pos h3, if_pos h2, h4, List.getElem?_cons_succ]
      · have h3 : ¬ (a + 1 ≤ c ∧ c < a + 1 + vs.length) := by simp at h2; omega
        rw [if_neg h3, if_neg h2, if_neg h1]

theorem wfFrom_mono {size lo lo' : Nat} {m : List (Nat × α)} (h : wfFrom size lo m = true) (hl : lo' ≤ lo) :
    wfFrom size lo' m = true := by
  cases m with
  | nil => rfl
  | cons p m =>
    simp only [wfFrom, Bool.and_eq_true, decide_eq_true_eq] at h ⊢
    exact ⟨⟨by omega, h.1.2⟩, h.2⟩

theorem wfFrom_write {size : Nat} {m : List (Nat × α)} {lo a : Nat} (v : α) (h : wfFrom size lo m = true)
    (hlo : lo ≤ a) (ha : a < size) : wfFrom size lo (write m a v) = true := by
  induction m generalizing lo with
  | nil => simp [write, wfFrom, hlo, ha]
  | cons p m ih =>
    obtain ⟨b, u⟩ := p
    simp only [wfFrom, Bool.and_eq_true, decide_eq_true_eq] at h
    by_cases h1 : a < b
    · simp only [write, h1, if_true, wfFrom, Bool.and_eq_true, decide_eq_true_eq]
      exact ⟨⟨hlo, ha⟩, ⟨⟨by omega, h.1.2⟩, h.2⟩⟩
    · by_cases h2 : a = b
      · subst h2
        simp [write, wfFrom, hlo, ha, h.2]
      · simp only [write, h1, if_false, h2, wfFrom, Bool.and_eq_true, decide_eq_true_eq]
        exact ⟨h.1, ih h.2 (by omega)⟩

/-- A write inside the memory keeps the canonical form. -/
theorem wf_write {size : Nat} {m : List (Nat × α)} {a : Nat} (v : α) (h : wf size m = true) (ha : a < size) :
    wf size (write m a v) = true := wfFrom_write v h (Nat.zero_le a) ha

/-- Storing a list inside the memory keeps the canonical form. -/
theorem wf_writeList {size : Nat} (vs : List α) {m : List (Nat × α)} {a : Nat} (h : wf size m = true)
    (ha : a + vs.length ≤ size) : wf size (writeList m a vs) = true := by
  induction vs generalizing m a with
  | nil => exact h
  | cons v vs ih =>
    simp only [List.length_cons] at ha
    exact ih (wf_write v h (by omega)) (by omega)

theorem lookup_below {size : Nat} {m : List (Nat × α)} {lo a : Nat} (h : wfFrom size lo m = true) (ha : a < lo) :
    lookup m a = none := by
  induction m generalizing lo with
  | nil => rfl
  | cons p m ih =>
    obtain ⟨b, u⟩ := p
    simp only [wfFrom, Bool.and_eq_true, decide_eq_true_eq] at h
    have hb : b ≠ a := by omega
    simp only [lookup_cons, hb, if_false]
    exact ih h.2 (by omega)

/-- In canonical form, memories that read alike are equal data. -/
theorem wfFrom_ext {size lo : Nat} {m m' : List (Nat × α)} (h : wfFrom size lo m = true) (h' : wfFrom size lo m' = true)
    (he : ∀ a, lookup m a = lookup m' a) : m = m' := by
  induction m generalizing lo m' with
  | nil =>
    cases m' with
    | nil => rfl
    | cons p m' =>
      have := he p.1
      rw [lookup_nil, lookup_cons, if_pos rfl] at this
      cases this
  | cons p m ih =>
    obtain ⟨b, u⟩ := p
    cases m' with
    | nil =>
      have := he b
      rw [lookup_nil, lookup_cons, if_pos rfl] at this
      cases this
    | cons p' m' =>
      obtain ⟨b', u'⟩ := p'
      simp only [wfFrom, Bool.and_eq_true, decide_eq_true_eq] at h h'
      have hbb : b = b' := by
        rcases Nat.lt_trichotomy b b' with hlt | heq | hgt
        · have := he b
          rw [lookup_cons, if_pos rfl, lookup_cons, if_neg (by omega), lookup_below h'.2 (by omega)] at this
          cases this
        · exact heq
        · have := he b'
          rw [lookup_cons, if_neg (by omega), lookup_cons, if_pos rfl, lookup_below h.2 (by omega)] at this
          cases this
      subst hbb
      have hu : u = u' := by have := he b; simpa [lookup_cons] using this
      subst hu
      refine congrArg _ (ih h.2 h'.2 fun a => ?_)
      by_cases hab : b = a
      · subst hab
        rw [lookup_below h.2 (by omega), lookup_below h'.2 (by omega)]
      · have := he a
        simpa [lookup_cons, hab] using this

theorem wf_ext {size : Nat} {m m' : List (Nat × α)} (h : wf size m = true) (h' : wf size m' = true)
    (he : ∀ a, lookup m a = lookup m' a) : m = m' := wfFrom_ext h h' he

end Sys2Proof.Machine.Memory
end

