-- ==== Sys2Proof/Laws/State.lean ====
section
/-! SUPPORT. One lemma per field of the state for each named update: what it writes, and what it leaves. -/

namespace Sys2Proof.Machine

/-! ### `State.goto` -/

@[simp] theorem State.goto_params (p : Phase) (s : State) : (s.goto p).params = s.params := rfl
@[simp] theorem State.goto_ring (p : Phase) (s : State) : (s.goto p).ring = s.ring := rfl
@[simp] theorem State.goto_write_index (p : Phase) (s : State) : (s.goto p).write_index = s.write_index := rfl
@[simp] theorem State.goto_read_index (p : Phase) (s : State) : (s.goto p).read_index = s.read_index := rfl
@[simp] theorem State.goto_phase (p : Phase) (s : State) : (s.goto p).phase = p := rfl
@[simp] theorem State.goto_load_trips (p : Phase) (s : State) : (s.goto p).load_trips = s.load_trips := rfl
@[simp] theorem State.goto_cbuf (p : Phase) (s : State) : (s.goto p).cbuf = s.cbuf := rfl
@[simp] theorem State.goto_cnt (p : Phase) (s : State) : (s.goto p).cnt = s.cnt := rfl
@[simp] theorem State.goto_mode (p : Phase) (s : State) : (s.goto p).mode = s.mode := rfl
@[simp] theorem State.goto_cur_frame (p : Phase) (s : State) : (s.goto p).cur_frame = s.cur_frame := rfl
@[simp] theorem State.goto_win_period1 (p : Phase) (s : State) : (s.goto p).win_period1 = s.win_period1 := rfl
@[simp] theorem State.goto_win_period2 (p : Phase) (s : State) : (s.goto p).win_period2 = s.win_period2 := rfl
@[simp] theorem State.goto_win_offset1 (p : Phase) (s : State) : (s.goto p).win_offset1 = s.win_offset1 := rfl
@[simp] theorem State.goto_win_offset2 (p : Phase) (s : State) : (s.goto p).win_offset2 = s.win_offset2 := rfl
@[simp] theorem State.goto_clk_div1 (p : Phase) (s : State) : (s.goto p).clk_div1 = s.clk_div1 := rfl
@[simp] theorem State.goto_clk_div2 (p : Phase) (s : State) : (s.goto p).clk_div2 = s.clk_div2 := rfl
@[simp] theorem State.goto_al_en (p : Phase) (s : State) : (s.goto p).al_en = s.al_en := rfl
@[simp] theorem State.goto_al_div (p : Phase) (s : State) : (s.goto p).al_div = s.al_div := rfl
@[simp] theorem State.goto_al_width (p : Phase) (s : State) : (s.goto p).al_width = s.al_width := rfl
@[simp] theorem State.goto_al_clksel (p : Phase) (s : State) : (s.goto p).al_clksel = s.al_clksel := rfl
@[simp] theorem State.goto_use_timer (p : Phase) (s : State) : (s.goto p).use_timer = s.use_timer := rfl
@[simp] theorem State.goto_timer_ready (p : Phase) (s : State) : (s.goto p).timer_ready = s.timer_ready := rfl
@[simp] theorem State.goto_ports (p : Phase) (s : State) : (s.goto p).ports = s.ports := rfl
@[simp] theorem State.goto_lines (p : Phase) (s : State) : (s.goto p).lines = s.lines := rfl
@[simp] theorem State.goto_databits (p : Phase) (s : State) : (s.goto p).databits = s.databits := rfl
@[simp] theorem State.goto_blocksize (p : Phase) (s : State) : (s.goto p).blocksize = s.blocksize := rfl
@[simp] theorem State.goto_cmd_mode_start (p : Phase) (s : State) : (s.goto p).cmd_mode_start = s.cmd_mode_start := rfl
@[simp] theorem State.goto_cmd_armed (p : Phase) (s : State) : (s.goto p).cmd_armed = s.cmd_armed := rfl
@[simp] theorem State.goto_fc_outstanding (p : Phase) (s : State) : (s.goto p).fc_outstanding = s.fc_outstanding := rfl
@[simp] theorem State.goto_ack_pending (p : Phase) (s : State) : (s.goto p).ack_pending = s.ack_pending := rfl
@[simp] theorem State.goto_no_data (p : Phase) (s : State) : (s.goto p).no_data = s.no_data := rfl
@[simp] theorem State.goto_cfg (p : Phase) (s : State) : (s.goto p).cfg = s.cfg := rfl
@[simp] theorem State.goto_cfg_changed (p : Phase) (s : State) : (s.goto p).cfg_changed = s.cfg_changed := rfl
@[simp] theorem State.goto_tx_ready (p : Phase) (s : State) : (s.goto p).tx_ready = s.tx_ready := rfl
@[simp] theorem State.goto_rx_hold (p : Phase) (s : State) : (s.goto p).rx_hold = s.rx_hold := rfl
@[simp] theorem State.goto_rx_queue (p : Phase) (s : State) : (s.goto p).rx_queue = s.rx_queue := rfl
@[simp] theorem State.goto_tx_sent (p : Phase) (s : State) : (s.goto p).tx_sent = s.tx_sent := rfl
@[simp] theorem State.goto_reinits (p : Phase) (s : State) : (s.goto p).reinits = s.reinits := rfl
@[simp] theorem State.goto_agenda (p : Phase) (s : State) : (s.goto p).agenda = s.agenda := rfl
@[simp] theorem State.goto_raised (p : Phase) (s : State) : (s.goto p).raised = s.raised := rfl
@[simp] theorem State.goto_power_ups (p : Phase) (s : State) : (s.goto p).power_ups = s.power_ups := rfl

/-! ### `State.raise` -/

@[simp] theorem State.raise_params (c : Condition) (s : State) : (s.raise c).params = s.params := rfl
@[simp] theorem State.raise_ring (c : Condition) (s : State) : (s.raise c).ring = s.ring := rfl
@[simp] theorem State.raise_write_index (c : Condition) (s : State) : (s.raise c).write_index = s.write_index := rfl
@[simp] theorem State.raise_read_index (c : Condition) (s : State) : (s.raise c).read_index = s.read_index := rfl
@[simp] theorem State.raise_phase (c : Condition) (s : State) : (s.raise c).phase = s.phase := rfl
@[simp] theorem State.raise_load_trips (c : Condition) (s : State) : (s.raise c).load_trips = s.load_trips := rfl
@[simp] theorem State.raise_cbuf (c : Condition) (s : State) : (s.raise c).cbuf = s.cbuf := rfl
@[simp] theorem State.raise_cnt (c : Condition) (s : State) : (s.raise c).cnt = s.cnt := rfl
@[simp] theorem State.raise_mode (c : Condition) (s : State) : (s.raise c).mode = s.mode := rfl
@[simp] theorem State.raise_cur_frame (c : Condition) (s : State) : (s.raise c).cur_frame = s.cur_frame := rfl
@[simp] theorem State.raise_win_period1 (c : Condition) (s : State) : (s.raise c).win_period1 = s.win_period1 := rfl
@[simp] theorem State.raise_win_period2 (c : Condition) (s : State) : (s.raise c).win_period2 = s.win_period2 := rfl
@[simp] theorem State.raise_win_offset1 (c : Condition) (s : State) : (s.raise c).win_offset1 = s.win_offset1 := rfl
@[simp] theorem State.raise_win_offset2 (c : Condition) (s : State) : (s.raise c).win_offset2 = s.win_offset2 := rfl
@[simp] theorem State.raise_clk_div1 (c : Condition) (s : State) : (s.raise c).clk_div1 = s.clk_div1 := rfl
@[simp] theorem State.raise_clk_div2 (c : Condition) (s : State) : (s.raise c).clk_div2 = s.clk_div2 := rfl
@[simp] theorem State.raise_al_en (c : Condition) (s : State) : (s.raise c).al_en = s.al_en := rfl
@[simp] theorem State.raise_al_div (c : Condition) (s : State) : (s.raise c).al_div = s.al_div := rfl
@[simp] theorem State.raise_al_width (c : Condition) (s : State) : (s.raise c).al_width = s.al_width := rfl
@[simp] theorem State.raise_al_clksel (c : Condition) (s : State) : (s.raise c).al_clksel = s.al_clksel := rfl
@[simp] theorem State.raise_use_timer (c : Condition) (s : State) : (s.raise c).use_timer = s.use_timer := rfl
@[simp] theorem State.raise_timer_ready (c : Condition) (s : State) : (s.raise c).timer_ready = s.timer_ready := rfl
@[simp] theorem State.raise_ports (c : Condition) (s : State) : (s.raise c).ports = s.ports := rfl
@[simp] theorem State.raise_lines (c : Condition) (s : State) : (s.raise c).lines = s.lines := rfl
@[simp] theorem State.raise_databits (c : Condition) (s : State) : (s.raise c).databits = s.databits := rfl
@[simp] theorem State.raise_blocksize (c : Condition) (s : State) : (s.raise c).blocksize = s.blocksize := rfl
@[simp] theorem State.raise_cmd_mode_start (c : Condition) (s : State) : (s.raise c).cmd_mode_start = s.cmd_mode_start := rfl
@[simp] theorem State.raise_cmd_armed (c : Condition) (s : State) : (s.raise c).cmd_armed = s.cmd_armed := rfl
@[simp] theorem State.raise_fc_outstanding (c : Condition) (s : State) : (s.raise c).fc_outstanding = s.fc_outstanding := rfl
@[simp] theorem State.raise_ack_pending (c : Condition) (s : State) : (s.raise c).ack_pending = s.ack_pending := rfl
@[simp] theorem State.raise_no_data (c : Condition) (s : State) : (s.raise c).no_data = s.no_data := rfl
@[simp] theorem State.raise_cfg (c : Condition) (s : State) : (s.raise c).cfg = s.cfg := rfl
@[simp] theorem State.raise_cfg_changed (c : Condition) (s : State) : (s.raise c).cfg_changed = s.cfg_changed := rfl
@[simp] theorem State.raise_tx_ready (c : Condition) (s : State) : (s.raise c).tx_ready = s.tx_ready := rfl
@[simp] theorem State.raise_rx_hold (c : Condition) (s : State) : (s.raise c).rx_hold = s.rx_hold := rfl
@[simp] theorem State.raise_rx_queue (c : Condition) (s : State) : (s.raise c).rx_queue = s.rx_queue := rfl
@[simp] theorem State.raise_tx_sent (c : Condition) (s : State) : (s.raise c).tx_sent = s.tx_sent := rfl
@[simp] theorem State.raise_reinits (c : Condition) (s : State) : (s.raise c).reinits = s.reinits := rfl
@[simp] theorem State.raise_agenda (c : Condition) (s : State) : (s.raise c).agenda = s.agenda := rfl
@[simp] theorem State.raise_raised (c : Condition) (s : State) : (s.raise c).raised = s.raised ++ [c] := rfl
@[simp] theorem State.raise_power_ups (c : Condition) (s : State) : (s.raise c).power_ups = s.power_ups := rfl

/-! ### `State.tx` -/

@[simp] theorem State.tx_params (b : Byte) (s : State) : (s.tx b).params = s.params := rfl
@[simp] theorem State.tx_ring (b : Byte) (s : State) : (s.tx b).ring = s.ring := rfl
@[simp] theorem State.tx_write_index (b : Byte) (s : State) : (s.tx b).write_index = s.write_index := rfl
@[simp] theorem State.tx_read_index (b : Byte) (s : State) : (s.tx b).read_index = s.read_index := rfl
@[simp] theorem State.tx_phase (b : Byte) (s : State) : (s.tx b).phase = s.phase := rfl
@[simp] theorem State.tx_load_trips (b : Byte) (s : State) : (s.tx b).load_trips = s.load_trips := rfl
@[simp] theorem State.tx_cbuf (b : Byte) (s : State) : (s.tx b).cbuf = s.cbuf := rfl
@[simp] theorem State.tx_cnt (b : Byte) (s : State) : (s.tx b).cnt = s.cnt := rfl
@[simp] theorem State.tx_mode (b : Byte) (s : State) : (s.tx b).mode = s.mode := rfl
@[simp] theorem State.tx_cur_frame (b : Byte) (s : State) : (s.tx b).cur_frame = s.cur_frame := rfl
@[simp] theorem State.tx_win_period1 (b : Byte) (s : State) : (s.tx b).win_period1 = s.win_period1 := rfl
@[simp] theorem State.tx_win_period2 (b : Byte) (s : State) : (s.tx b).win_period2 = s.win_period2 := rfl
@[simp] theorem State.tx_win_offset1 (b : Byte) (s : State) : (s.tx b).win_offset1 = s.win_offset1 := rfl
@[simp] theorem State.tx_win_offset2 (b : Byte) (s : State) : (s.tx b).win_offset2 = s.win_offset2 := rfl
@[simp] theorem State.tx_clk_div1 (b : Byte) (s : State) : (s.tx b).clk_div1 = s.clk_div1 := rfl
@[simp] theorem State.tx_clk_div2 (b : Byte) (s : State) : (s.tx b).clk_div2 = s.clk_div2 := rfl
@[simp] theorem State.tx_al_en (b : Byte) (s : State) : (s.tx b).al_en = s.al_en := rfl
@[simp] theorem State.tx_al_div (b : Byte) (s : State) : (s.tx b).al_div = s.al_div := rfl
@[simp] theorem State.tx_al_width (b : Byte) (s : State) : (s.tx b).al_width = s.al_width := rfl
@[simp] theorem State.tx_al_clksel (b : Byte) (s : State) : (s.tx b).al_clksel = s.al_clksel := rfl
@[simp] theorem State.tx_use_timer (b : Byte) (s : State) : (s.tx b).use_timer = s.use_timer := rfl
@[simp] theorem State.tx_timer_ready (b : Byte) (s : State) : (s.tx b).timer_ready = s.timer_ready := rfl
@[simp] theorem State.tx_ports (b : Byte) (s : State) : (s.tx b).ports = s.ports := rfl
@[simp] theorem State.tx_lines (b : Byte) (s : State) : (s.tx b).lines = s.lines := rfl
@[simp] theorem State.tx_databits (b : Byte) (s : State) : (s.tx b).databits = s.databits := rfl
@[simp] theorem State.tx_blocksize (b : Byte) (s : State) : (s.tx b).blocksize = s.blocksize := rfl
@[simp] theorem State.tx_cmd_mode_start (b : Byte) (s : State) : (s.tx b).cmd_mode_start = s.cmd_mode_start := rfl
@[simp] theorem State.tx_cmd_armed (b : Byte) (s : State) : (s.tx b).cmd_armed = s.cmd_armed := rfl
@[simp] theorem State.tx_fc_outstanding (b : Byte) (s : State) : (s.tx b).fc_outstanding = s.fc_outstanding := rfl
@[simp] theorem State.tx_ack_pending (b : Byte) (s : State) : (s.tx b).ack_pending = s.ack_pending := rfl
@[simp] theorem State.tx_no_data (b : Byte) (s : State) : (s.tx b).no_data = s.no_data := rfl
@[simp] theorem State.tx_cfg (b : Byte) (s : State) : (s.tx b).cfg = s.cfg := rfl
@[simp] theorem State.tx_cfg_changed (b : Byte) (s : State) : (s.tx b).cfg_changed = s.cfg_changed := rfl
@[simp] theorem State.tx_tx_ready (b : Byte) (s : State) : (s.tx b).tx_ready = s.tx_ready := rfl
@[simp] theorem State.tx_rx_hold (b : Byte) (s : State) : (s.tx b).rx_hold = s.rx_hold := rfl
@[simp] theorem State.tx_rx_queue (b : Byte) (s : State) : (s.tx b).rx_queue = s.rx_queue := rfl
@[simp] theorem State.tx_tx_sent (b : Byte) (s : State) : (s.tx b).tx_sent = s.tx_sent ++ [b] := rfl
@[simp] theorem State.tx_reinits (b : Byte) (s : State) : (s.tx b).reinits = s.reinits := rfl
@[simp] theorem State.tx_agenda (b : Byte) (s : State) : (s.tx b).agenda = s.agenda := rfl
@[simp] theorem State.tx_raised (b : Byte) (s : State) : (s.tx b).raised = s.raised := rfl
@[simp] theorem State.tx_power_ups (b : Byte) (s : State) : (s.tx b).power_ups = s.power_ups := rfl

/-! ### `State.callReinit` -/

@[simp] theorem State.callReinit_params (s : State) : (s.callReinit).params = s.params := rfl
@[simp] theorem State.callReinit_ring (s : State) : (s.callReinit).ring = s.ring := rfl
@[simp] theorem State.callReinit_write_index (s : State) : (s.callReinit).write_index = s.write_index := rfl
@[simp] theorem State.callReinit_read_index (s : State) : (s.callReinit).read_index = s.read_index := rfl
@[simp] theorem State.callReinit_phase (s : State) : (s.callReinit).phase = s.phase := rfl
@[simp] theorem State.callReinit_load_trips (s : State) : (s.callReinit).load_trips = s.load_trips := rfl
@[simp] theorem State.callReinit_cbuf (s : State) : (s.callReinit).cbuf = s.cbuf := rfl
@[simp] theorem State.callReinit_cnt (s : State) : (s.callReinit).cnt = s.cnt := rfl
@[simp] theorem State.callReinit_mode (s : State) : (s.callReinit).mode = s.mode := rfl
@[simp] theorem State.callReinit_cur_frame (s : State) : (s.callReinit).cur_frame = s.cur_frame := rfl
@[simp] theorem State.callReinit_win_period1 (s : State) : (s.callReinit).win_period1 = s.win_period1 := rfl
@[simp] theorem State.callReinit_win_period2 (s : State) : (s.callReinit).win_period2 = s.win_period2 := rfl
@[simp] theorem State.callReinit_win_offset1 (s : State) : (s.callReinit).win_offset1 = s.win_offset1 := rfl
@[simp] theorem State.callReinit_win_offset2 (s : State) : (s.callReinit).win_offset2 = s.win_offset2 := rfl
@[simp] theorem State.callReinit_clk_div1 (s : State) : (s.callReinit).clk_div1 = s.clk_div1 := rfl
@[simp] theorem State.callReinit_clk_div2 (s : State) : (s.callReinit).clk_div2 = s.clk_div2 := rfl
@[simp] theorem State.callReinit_al_en (s : State) : (s.callReinit).al_en = s.al_en := rfl
@[simp] theorem State.callReinit_al_div (s : State) : (s.callReinit).al_div = s.al_div := rfl
@[simp] theorem State.callReinit_al_width (s : State) : (s.callReinit).al_width = s.al_width := rfl
@[simp] theorem State.callReinit_al_clksel (s : State) : (s.callReinit).al_clksel = s.al_clksel := rfl
@[simp] theorem State.callReinit_use_timer (s : State) : (s.callReinit).use_timer = s.use_timer := rfl
@[simp] theorem State.callReinit_timer_ready (s : State) : (s.callReinit).timer_ready = s.timer_ready := rfl
@[simp] theorem State.callReinit_ports (s : State) : (s.callReinit).ports = s.ports := rfl
@[simp] theorem State.callReinit_lines (s : State) : (s.callReinit).lines = s.lines := rfl
@[simp] theorem State.callReinit_databits (s : State) : (s.callReinit).databits = s.databits := rfl
@[simp] theorem State.callReinit_blocksize (s : State) : (s.callReinit).blocksize = s.blocksize := rfl
@[simp] theorem State.callReinit_cmd_mode_start (s : State) : (s.callReinit).cmd_mode_start = s.cmd_mode_start := rfl
@[simp] theorem State.callReinit_cmd_armed (s : State) : (s.callReinit).cmd_armed = s.cmd_armed := rfl
@[simp] theorem State.callReinit_fc_outstanding (s : State) : (s.callReinit).fc_outstanding = s.fc_outstanding := rfl
@[simp] theorem State.callReinit_ack_pending (s : State) : (s.callReinit).ack_pending = s.ack_pending := rfl
@[simp] theorem State.callReinit_no_data (s : State) : (s.callReinit).no_data = s.no_data := rfl
@[simp] theorem State.callReinit_cfg (s : State) : (s.callReinit).cfg = s.cfg := rfl
@[simp] theorem State.callReinit_cfg_changed (s : State) : (s.callReinit).cfg_changed = s.cfg_changed := rfl
@[simp] theorem State.callReinit_tx_ready (s : State) : (s.callReinit).tx_ready = s.tx_ready := rfl
@[simp] theorem State.callReinit_rx_hold (s : State) : (s.callReinit).rx_hold = s.rx_hold := rfl
@[simp] theorem State.callReinit_rx_queue (s : State) : (s.callReinit).rx_queue = s.rx_queue := rfl
@[simp] theorem State.callReinit_tx_sent (s : State) : (s.callReinit).tx_sent = s.tx_sent := rfl
@[simp] theorem State.callReinit_reinits (s : State) : (s.callReinit).reinits = s.reinits + 1 := rfl
@[simp] theorem State.callReinit_agenda (s : State) : (s.callReinit).agenda = s.agenda := rfl
@[simp] theorem State.callReinit_raised (s : State) : (s.callReinit).raised = s.raised := rfl
@[simp] theorem State.callReinit_power_ups (s : State) : (s.callReinit).power_ups = s.power_ups := rfl

/-! ### `State.fetch` -/

@[simp] theorem State.fetch_params (f : List Byte) (s : State) : (s.fetch f).params = s.params := rfl
@[simp] theorem State.fetch_ring (f : List Byte) (s : State) : (s.fetch f).ring = s.ring := rfl
@[simp] theorem State.fetch_write_index (f : List Byte) (s : State) : (s.fetch f).write_index = s.write_index := rfl
@[simp] theorem State.fetch_read_index (f : List Byte) (s : State) : (s.fetch f).read_index = s.read_index := rfl
@[simp] theorem State.fetch_phase (f : List Byte) (s : State) : (s.fetch f).phase = s.phase := rfl
@[simp] theorem State.fetch_load_trips (f : List Byte) (s : State) : (s.fetch f).load_trips = s.load_trips := rfl
@[simp] theorem State.fetch_cbuf (f : List Byte) (s : State) : (s.fetch f).cbuf = Memory.writeList s.cbuf 0 f := rfl
@[simp] theorem State.fetch_cnt (f : List Byte) (s : State) : (s.fetch f).cnt = BitVec.ofNat 7 f.length := rfl
@[simp] theorem State.fetch_mode (f : List Byte) (s : State) : (s.fetch f).mode = s.mode := rfl
@[simp] theorem State.fetch_cur_frame (f : List Byte) (s : State) : (s.fetch f).cur_frame = s.cur_frame := rfl
@[simp] theorem State.fetch_win_period1 (f : List Byte) (s : State) : (s.fetch f).win_period1 = s.win_period1 := rfl
@[simp] theorem State.fetch_win_period2 (f : List Byte) (s : State) : (s.fetch f).win_period2 = s.win_period2 := rfl
@[simp] theorem State.fetch_win_offset1 (f : List Byte) (s : State) : (s.fetch f).win_offset1 = s.win_offset1 := rfl
@[simp] theorem State.fetch_win_offset2 (f : List Byte) (s : State) : (s.fetch f).win_offset2 = s.win_offset2 := rfl
@[simp] theorem State.fetch_clk_div1 (f : List Byte) (s : State) : (s.fetch f).clk_div1 = s.clk_div1 := rfl
@[simp] theorem State.fetch_clk_div2 (f : List Byte) (s : State) : (s.fetch f).clk_div2 = s.clk_div2 := rfl
@[simp] theorem State.fetch_al_en (f : List Byte) (s : State) : (s.fetch f).al_en = s.al_en := rfl
@[simp] theorem State.fetch_al_div (f : List Byte) (s : State) : (s.fetch f).al_div = s.al_div := rfl
@[simp] theorem State.fetch_al_width (f : List Byte) (s : State) : (s.fetch f).al_width = s.al_width := rfl
@[simp] theorem State.fetch_al_clksel (f : List Byte) (s : State) : (s.fetch f).al_clksel = s.al_clksel := rfl
@[simp] theorem State.fetch_use_timer (f : List Byte) (s : State) : (s.fetch f).use_timer = s.use_timer := rfl
@[simp] theorem State.fetch_timer_ready (f : List Byte) (s : State) : (s.fetch f).timer_ready = s.timer_ready := rfl
@[simp] theorem State.fetch_ports (f : List Byte) (s : State) : (s.fetch f).ports = s.ports := rfl
@[simp] theorem State.fetch_lines (f : List Byte) (s : State) : (s.fetch f).lines = s.lines := rfl
@[simp] theorem State.fetch_databits (f : List Byte) (s : State) : (s.fetch f).databits = s.databits := rfl
@[simp] theorem State.fetch_blocksize (f : List Byte) (s : State) : (s.fetch f).blocksize = s.blocksize := rfl
@[simp] theorem State.fetch_cmd_mode_start (f : List Byte) (s : State) : (s.fetch f).cmd_mode_start = s.cmd_mode_start := rfl
@[simp] theorem State.fetch_cmd_armed (f : List Byte) (s : State) : (s.fetch f).cmd_armed = s.cmd_armed := rfl
@[simp] theorem State.fetch_fc_outstanding (f : List Byte) (s : State) : (s.fetch f).fc_outstanding = s.fc_outstanding := rfl
@[simp] theorem State.fetch_ack_pending (f : List Byte) (s : State) : (s.fetch f).ack_pending = s.ack_pending := rfl
@[simp] theorem State.fetch_no_data (f : List Byte) (s : State) : (s.fetch f).no_data = s.no_data := rfl
@[simp] theorem State.fetch_cfg (f : List Byte) (s : State) : (s.fetch f).cfg = s.cfg := rfl
@[simp] theorem State.fetch_cfg_changed (f : List Byte) (s : State) : (s.fetch f).cfg_changed = s.cfg_changed := rfl
@[simp] theorem State.fetch_tx_ready (f : List Byte) (s : State) : (s.fetch f).tx_ready = s.tx_ready := rfl
@[simp] theorem State.fetch_rx_hold (f : List Byte) (s : State) : (s.fetch f).rx_hold = s.rx_hold := rfl
@[simp] theorem State.fetch_rx_queue (f : List Byte) (s : State) : (s.fetch f).rx_queue = s.rx_queue.tail := rfl
@[simp] theorem State.fetch_tx_sent (f : List Byte) (s : State) : (s.fetch f).tx_sent = s.tx_sent := rfl
@[simp] theorem State.fetch_reinits (f : List Byte) (s : State) : (s.fetch f).reinits = s.reinits := rfl
@[simp] theorem State.fetch_agenda (f : List Byte) (s : State) : (s.fetch f).agenda = s.agenda := rfl
@[simp] theorem State.fetch_raised (f : List Byte) (s : State) : (s.fetch f).raised = s.raised := rfl
@[simp] theorem State.fetch_power_ups (f : List Byte) (s : State) : (s.fetch f).power_ups = s.power_ups := rfl

/-! ### `State.push` -/

@[simp] theorem State.push_params (f : Frame) (s : State) : (s.push f).params = s.params := rfl
@[simp] theorem State.push_ring (f : Frame) (s : State) : (s.push f).ring = Memory.write s.ring (s.slot s.write_index) f := rfl
@[simp] theorem State.push_write_index (f : Frame) (s : State) : (s.push f).write_index = s.write_index + 1 := rfl
@[simp] theorem State.push_read_index (f : Frame) (s : State) : (s.push f).read_index = s.read_index := rfl
@[simp] theorem State.push_phase (f : Frame) (s : State) : (s.push f).phase = s.phase := rfl
@[simp] theorem State.push_load_trips (f : Frame) (s : State) : (s.push f).load_trips = s.load_trips := rfl
@[simp] theorem State.push_cbuf (f : Frame) (s : State) : (s.push f).cbuf = s.cbuf := rfl
@[simp] theorem State.push_cnt (f : Frame) (s : State) : (s.push f).cnt = s.cnt := rfl
@[simp] theorem State.push_mode (f : Frame) (s : State) : (s.push f).mode = s.mode := rfl
@[simp] theorem State.push_cur_frame (f : Frame) (s : State) : (s.push f).cur_frame = s.cur_frame := rfl
@[simp] theorem State.push_win_period1 (f : Frame) (s : State) : (s.push f).win_period1 = s.win_period1 := rfl
@[simp] theorem State.push_win_period2 (f : Frame) (s : State) : (s.push f).win_period2 = s.win_period2 := rfl
@[simp] theorem State.push_win_offset1 (f : Frame) (s : State) : (s.push f).win_offset1 = s.win_offset1 := rfl
@[simp] theorem State.push_win_offset2 (f : Frame) (s : State) : (s.push f).win_offset2 = s.win_offset2 := rfl
@[simp] theorem State.push_clk_div1 (f : Frame) (s : State) : (s.push f).clk_div1 = s.clk_div1 := rfl
@[simp] theorem State.push_clk_div2 (f : Frame) (s : State) : (s.push f).clk_div2 = s.clk_div2 := rfl
@[simp] theorem State.push_al_en (f : Frame) (s : State) : (s.push f).al_en = s.al_en := rfl
@[simp] theorem State.push_al_div (f : Frame) (s : State) : (s.push f).al_div = s.al_div := rfl
@[simp] theorem State.push_al_width (f : Frame) (s : State) : (s.push f).al_width = s.al_width := rfl
@[simp] theorem State.push_al_clksel (f : Frame) (s : State) : (s.push f).al_clksel = s.al_clksel := rfl
@[simp] theorem State.push_use_timer (f : Frame) (s : State) : (s.push f).use_timer = s.use_timer := rfl
@[simp] theorem State.push_timer_ready (f : Frame) (s : State) : (s.push f).timer_ready = s.timer_ready := rfl
@[simp] theorem State.push_ports (f : Frame) (s : State) : (s.push f).ports = s.ports := rfl
@[simp] theorem State.push_lines (f : Frame) (s : State) : (s.push f).lines = s.lines := rfl
@[simp] theorem State.push_databits (f : Frame) (s : State) : (s.push f).databits = s.databits := rfl
@[simp] theorem State.push_blocksize (f : Frame) (s : State) : (s.push f).blocksize = s.blocksize := rfl
@[simp] theorem State.push_cmd_mode_start (f : Frame) (s : State) : (s.push f).cmd_mode_start = s.cmd_mode_start := rfl
@[simp] theorem State.push_cmd_armed (f : Frame) (s : State) : (s.push f).cmd_armed = s.cmd_armed := rfl
@[simp] theorem State.push_fc_outstanding (f : Frame) (s : State) : (s.push f).fc_outstanding = s.fc_outstanding := rfl
@[simp] theorem State.push_ack_pending (f : Frame) (s : State) : (s.push f).ack_pending = s.ack_pending := rfl
@[simp] theorem State.push_no_data (f : Frame) (s : State) : (s.push f).no_data = if s.params.noDataClearOnPush then false else s.no_data := rfl
@[simp] theorem State.push_cfg (f : Frame) (s : State) : (s.push f).cfg = s.cfg := rfl
@[simp] theorem State.push_cfg_changed (f : Frame) (s : State) : (s.push f).cfg_changed = s.cfg_changed := rfl
@[simp] theorem State.push_tx_ready (f : Frame) (s : State) : (s.push f).tx_ready = s.tx_ready := rfl
@[simp] theorem State.push_rx_hold (f : Frame) (s : State) : (s.push f).rx_hold = s.rx_hold := rfl
@[simp] theorem State.push_rx_queue (f : Frame) (s : State) : (s.push f).rx_queue = s.rx_queue := rfl
@[simp] theorem State.push_tx_sent (f : Frame) (s : State) : (s.push f).tx_sent = s.tx_sent := rfl
@[simp] theorem State.push_reinits (f : Frame) (s : State) : (s.push f).reinits = s.reinits := rfl
@[simp] theorem State.push_agenda (f : Frame) (s : State) : (s.push f).agenda = s.agenda := rfl
@[simp] theorem State.push_raised (f : Frame) (s : State) : (s.push f).raised = s.raised := rfl
@[simp] theorem State.push_power_ups (f : Frame) (s : State) : (s.push f).power_ups = s.power_ups := rfl

/-! ### `State.advanceRead` -/

@[simp] theorem State.advanceRead_params (s : State) : (s.advanceRead).params = s.params := rfl
@[simp] theorem State.advanceRead_ring (s : State) : (s.advanceRead).ring = s.ring := rfl
@[simp] theorem State.advanceRead_write_index (s : State) : (s.advanceRead).write_index = s.write_index := rfl
@[simp] theorem State.advanceRead_read_index (s : State) : (s.advanceRead).read_index = s.read_index + 1 := rfl
@[simp] theorem State.advanceRead_phase (s : State) : (s.advanceRead).phase = s.phase := rfl
@[simp] theorem State.advanceRead_load_trips (s : State) : (s.advanceRead).load_trips = s.load_trips := rfl
@[simp] theorem State.advanceRead_cbuf (s : State) : (s.advanceRead).cbuf = s.cbuf := rfl
@[simp] theorem State.advanceRead_cnt (s : State) : (s.advanceRead).cnt = s.cnt := rfl
@[simp] theorem State.advanceRead_mode (s : State) : (s.advanceRead).mode = s.mode := rfl
@[simp] theorem State.advanceRead_cur_frame (s : State) : (s.advanceRead).cur_frame = s.cur_frame := rfl
@[simp] theorem State.advanceRead_win_period1 (s : State) : (s.advanceRead).win_period1 = s.win_period1 := rfl
@[simp] theorem State.advanceRead_win_period2 (s : State) : (s.advanceRead).win_period2 = s.win_period2 := rfl
@[simp] theorem State.advanceRead_win_offset1 (s : State) : (s.advanceRead).win_offset1 = s.win_offset1 := rfl
@[simp] theorem State.advanceRead_win_offset2 (s : State) : (s.advanceRead).win_offset2 = s.win_offset2 := rfl
@[simp] theorem State.advanceRead_clk_div1 (s : State) : (s.advanceRead).clk_div1 = s.clk_div1 := rfl
@[simp] theorem State.advanceRead_clk_div2 (s : State) : (s.advanceRead).clk_div2 = s.clk_div2 := rfl
@[simp] theorem State.advanceRead_al_en (s : State) : (s.advanceRead).al_en = s.al_en := rfl
@[simp] theorem State.advanceRead_al_div (s : State) : (s.advanceRead).al_div = s.al_div := rfl
@[simp] theorem State.advanceRead_al_width (s : State) : (s.advanceRead).al_width = s.al_width := rfl
@[simp] theorem State.advanceRead_al_clksel (s : State) : (s.advanceRead).al_clksel = s.al_clksel := rfl
@[simp] theorem State.advanceRead_use_timer (s : State) : (s.advanceRead).use_timer = s.use_timer := rfl
@[simp] theorem State.advanceRead_timer_ready (s : State) : (s.advanceRead).timer_ready = s.timer_ready := rfl
@[simp] theorem State.advanceRead_ports (s : State) : (s.advanceRead).ports = s.ports := rfl
@[simp] theorem State.advanceRead_lines (s : State) : (s.advanceRead).lines = s.lines := rfl
@[simp] theorem State.advanceRead_databits (s : State) : (s.advanceRead).databits = s.databits := rfl
@[simp] theorem State.advanceRead_blocksize (s : State) : (s.advanceRead).blocksize = s.blocksize := rfl
@[simp] theorem State.advanceRead_cmd_mode_start (s : State) : (s.advanceRead).cmd_mode_start = s.cmd_mode_start := rfl
@[simp] theorem State.advanceRead_cmd_armed (s : State) : (s.advanceRead).cmd_armed = s.cmd_armed := rfl
@[simp] theorem State.advanceRead_fc_outstanding (s : State) : (s.advanceRead).fc_outstanding = s.fc_outstanding := rfl
@[simp] theorem State.advanceRead_ack_pending (s : State) : (s.advanceRead).ack_pending = s.ack_pending := rfl
@[simp] theorem State.advanceRead_no_data (s : State) : (s.advanceRead).no_data = s.no_data := rfl
@[simp] theorem State.advanceRead_cfg (s : State) : (s.advanceRead).cfg = s.cfg := rfl
@[simp] theorem State.advanceRead_cfg_changed (s : State) : (s.advanceRead).cfg_changed = s.cfg_changed := rfl
@[simp] theorem State.advanceRead_tx_ready (s : State) : (s.advanceRead).tx_ready = s.tx_ready := rfl
@[simp] theorem State.advanceRead_rx_hold (s : State) : (s.advanceRead).rx_hold = s.rx_hold := rfl
@[simp] theorem State.advanceRead_rx_queue (s : State) : (s.advanceRead).rx_queue = s.rx_queue := rfl
@[simp] theorem State.advanceRead_tx_sent (s : State) : (s.advanceRead).tx_sent = s.tx_sent := rfl
@[simp] theorem State.advanceRead_reinits (s : State) : (s.advanceRead).reinits = s.reinits := rfl
@[simp] theorem State.advanceRead_agenda (s : State) : (s.advanceRead).agenda = s.agenda := rfl
@[simp] theorem State.advanceRead_raised (s : State) : (s.advanceRead).raised = s.raised := rfl
@[simp] theorem State.advanceRead_power_ups (s : State) : (s.advanceRead).power_ups = s.power_ups := rfl

/-! ### `State.dropFrame` -/

@[simp] theorem State.dropFrame_params (c : Condition) (s : State) : (s.dropFrame c).params = s.params := rfl
@[simp] theorem State.dropFrame_ring (c : Condition) (s : State) : (s.dropFrame c).ring = s.ring := rfl
@[simp] theorem State.dropFrame_write_index (c : Condition) (s : State) : (s.dropFrame c).write_index = s.write_index := rfl
@[simp] theorem State.dropFrame_read_index (c : Condition) (s : State) : (s.dropFrame c).read_index = s.read_index := rfl
@[simp] theorem State.dropFrame_phase (c : Condition) (s : State) : (s.dropFrame c).phase = .fc := rfl
@[simp] theorem State.dropFrame_load_trips (c : Condition) (s : State) : (s.dropFrame c).load_trips = s.load_trips := rfl
@[simp] theorem State.dropFrame_cbuf (c : Condition) (s : State) : (s.dropFrame c).cbuf = s.cbuf := rfl
@[simp] theorem State.dropFrame_cnt (c : Condition) (s : State) : (s.dropFrame c).cnt = s.cnt := rfl
@[simp] theorem State.dropFrame_mode (c : Condition) (s : State) : (s.dropFrame c).mode = s.mode := rfl
@[simp] theorem State.dropFrame_cur_frame (c : Condition) (s : State) : (s.dropFrame c).cur_frame = s.cur_frame := rfl
@[simp] theorem State.dropFrame_win_period1 (c : Condition) (s : State) : (s.dropFrame c).win_period1 = s.win_period1 := rfl
@[simp] theorem State.dropFrame_win_period2 (c : Condition) (s : State) : (s.dropFrame c).win_period2 = s.win_period2 := rfl
@[simp] theorem State.dropFrame_win_offset1 (c : Condition) (s : State) : (s.dropFrame c).win_offset1 = s.win_offset1 := rfl
@[simp] theorem State.dropFrame_win_offset2 (c : Condition) (s : State) : (s.dropFrame c).win_offset2 = s.win_offset2 := rfl
@[simp] theorem State.dropFrame_clk_div1 (c : Condition) (s : State) : (s.dropFrame c).clk_div1 = s.clk_div1 := rfl
@[simp] theorem State.dropFrame_clk_div2 (c : Condition) (s : State) : (s.dropFrame c).clk_div2 = s.clk_div2 := rfl
@[simp] theorem State.dropFrame_al_en (c : Condition) (s : State) : (s.dropFrame c).al_en = s.al_en := rfl
@[simp] theorem State.dropFrame_al_div (c : Condition) (s : State) : (s.dropFrame c).al_div = s.al_div := rfl
@[simp] theorem State.dropFrame_al_width (c : Condition) (s : State) : (s.dropFrame c).al_width = s.al_width := rfl
@[simp] theorem State.dropFrame_al_clksel (c : Condition) (s : State) : (s.dropFrame c).al_clksel = s.al_clksel := rfl
@[simp] theorem State.dropFrame_use_timer (c : Condition) (s : State) : (s.dropFrame c).use_timer = s.use_timer := rfl
@[simp] theorem State.dropFrame_timer_ready (c : Condition) (s : State) : (s.dropFrame c).timer_ready = s.timer_ready := rfl
@[simp] theorem State.dropFrame_ports (c : Condition) (s : State) : (s.dropFrame c).ports = s.ports := rfl
@[simp] theorem State.dropFrame_lines (c : Condition) (s : State) : (s.dropFrame c).lines = s.lines := rfl
@[simp] theorem State.dropFrame_databits (c : Condition) (s : State) : (s.dropFrame c).databits = s.databits := rfl
@[simp] theorem State.dropFrame_blocksize (c : Condition) (s : State) : (s.dropFrame c).blocksize = s.blocksize := rfl
@[simp] theorem State.dropFrame_cmd_mode_start (c : Condition) (s : State) : (s.dropFrame c).cmd_mode_start = s.cmd_mode_start := rfl
@[simp] theorem State.dropFrame_cmd_armed (c : Condition) (s : State) : (s.dropFrame c).cmd_armed = s.cmd_armed := rfl
@[simp] theorem State.dropFrame_fc_outstanding (c : Condition) (s : State) : (s.dropFrame c).fc_outstanding = s.fc_outstanding := rfl
@[simp] theorem State.dropFrame_ack_pending (c : Condition) (s : State) : (s.dropFrame c).ack_pending = s.ack_pending := rfl
@[simp] theorem State.dropFrame_no_data (c : Condition) (s : State) : (s.dropFrame c).no_data = s.no_data := rfl
@[simp] theorem State.dropFrame_cfg (c : Condition) (s : State) : (s.dropFrame c).cfg = s.cfg := rfl
@[simp] theorem State.dropFrame_cfg_changed (c : Condition) (s : State) : (s.dropFrame c).cfg_changed = s.cfg_changed := rfl
@[simp] theorem State.dropFrame_tx_ready (c : Condition) (s : State) : (s.dropFrame c).tx_ready = s.tx_ready := rfl
@[simp] theorem State.dropFrame_rx_hold (c : Condition) (s : State) : (s.dropFrame c).rx_hold = s.rx_hold := rfl
@[simp] theorem State.dropFrame_rx_queue (c : Condition) (s : State) : (s.dropFrame c).rx_queue = s.rx_queue := rfl
@[simp] theorem State.dropFrame_tx_sent (c : Condition) (s : State) : (s.dropFrame c).tx_sent = s.tx_sent := rfl
@[simp] theorem State.dropFrame_reinits (c : Condition) (s : State) : (s.dropFrame c).reinits = s.reinits := rfl
@[simp] theorem State.dropFrame_agenda (c : Condition) (s : State) : (s.dropFrame c).agenda = s.agenda := rfl
@[simp] theorem State.dropFrame_raised (c : Condition) (s : State) : (s.dropFrame c).raised = s.raised ++ [c] := rfl
@[simp] theorem State.dropFrame_power_ups (c : Condition) (s : State) : (s.dropFrame c).power_ups = s.power_ups := rfl

/-! ### `State.enterCommandMode` -/

@[simp] theorem State.enterCommandMode_params (s : State) : (s.enterCommandMode).params = s.params := rfl
@[simp] theorem State.enterCommandMode_ring (s : State) : (s.enterCommandMode).ring = s.ring := rfl
@[simp] theorem State.enterCommandMode_write_index (s : State) : (s.enterCommandMode).write_index = s.write_index := rfl
@[simp] theorem State.enterCommandMode_read_index (s : State) : (s.enterCommandMode).read_index = s.read_index := rfl
@[simp] theorem State.enterCommandMode_phase (s : State) : (s.enterCommandMode).phase = s.phase := rfl
@[simp] theorem State.enterCommandMode_load_trips (s : State) : (s.enterCommandMode).load_trips = s.load_trips := rfl
@[simp] theorem State.enterCommandMode_cbuf (s : State) : (s.enterCommandMode).cbuf = s.cbuf := rfl
@[simp] theorem State.enterCommandMode_cnt (s : State) : (s.enterCommandMode).cnt = s.cnt := rfl
@[simp] theorem State.enterCommandMode_mode (s : State) : (s.enterCommandMode).mode = .commandMode := rfl
@[simp] theorem State.enterCommandMode_cur_frame (s : State) : (s.enterCommandMode).cur_frame = s.cur_frame := rfl
@[simp] theorem State.enterCommandMode_win_period1 (s : State) : (s.enterCommandMode).win_period1 = s.win_period1 := rfl
@[simp] theorem State.enterCommandMode_win_period2 (s : State) : (s.enterCommandMode).win_period2 = s.win_period2 := rfl
@[simp] theorem State.enterCommandMode_win_offset1 (s : State) : (s.enterCommandMode).win_offset1 = s.win_offset1 := rfl
@[simp] theorem State.enterCommandMode_win_offset2 (s : State) : (s.enterCommandMode).win_offset2 = s.win_offset2 := rfl
@[simp] theorem State.enterCommandMode_clk_div1 (s : State) : (s.enterCommandMode).clk_div1 = s.clk_div1 := rfl
@[simp] theorem State.enterCommandMode_clk_div2 (s : State) : (s.enterCommandMode).clk_div2 = s.clk_div2 := rfl
@[simp] theorem State.enterCommandMode_al_en (s : State) : (s.enterCommandMode).al_en = s.al_en := rfl
@[simp] theorem State.enterCommandMode_al_div (s : State) : (s.enterCommandMode).al_div = s.al_div := rfl
@[simp] theorem State.enterCommandMode_al_width (s : State) : (s.enterCommandMode).al_width = s.al_width := rfl
@[simp] theorem State.enterCommandMode_al_clksel (s : State) : (s.enterCommandMode).al_clksel = s.al_clksel := rfl
@[simp] theorem State.enterCommandMode_use_timer (s : State) : (s.enterCommandMode).use_timer = s.use_timer := rfl
@[simp] theorem State.enterCommandMode_timer_ready (s : State) : (s.enterCommandMode).timer_ready = s.timer_ready := rfl
@[simp] theorem State.enterCommandMode_ports (s : State) : (s.enterCommandMode).ports = s.ports := rfl
@[simp] theorem State.enterCommandMode_lines (s : State) : (s.enterCommandMode).lines = s.lines := rfl
@[simp] theorem State.enterCommandMode_databits (s : State) : (s.enterCommandMode).databits = s.databits := rfl
@[simp] theorem State.enterCommandMode_blocksize (s : State) : (s.enterCommandMode).blocksize = s.blocksize := rfl
@[simp] theorem State.enterCommandMode_cmd_mode_start (s : State) : (s.enterCommandMode).cmd_mode_start = s.cmd_mode_start := rfl
@[simp] theorem State.enterCommandMode_cmd_armed (s : State) : (s.enterCommandMode).cmd_armed = false := rfl
@[simp] theorem State.enterCommandMode_fc_outstanding (s : State) : (s.enterCommandMode).fc_outstanding = s.fc_outstanding := rfl
@[simp] theorem State.enterCommandMode_ack_pending (s : State) : (s.enterCommandMode).ack_pending = true := rfl
@[simp] theorem State.enterCommandMode_no_data (s : State) : (s.enterCommandMode).no_data = s.no_data := rfl
@[simp] theorem State.enterCommandMode_cfg (s : State) : (s.enterCommandMode).cfg = s.cfg := rfl
@[simp] theorem State.enterCommandMode_cfg_changed (s : State) : (s.enterCommandMode).cfg_changed = s.cfg_changed := rfl
@[simp] theorem State.enterCommandMode_tx_ready (s : State) : (s.enterCommandMode).tx_ready = s.tx_ready := rfl
@[simp] theorem State.enterCommandMode_rx_hold (s : State) : (s.enterCommandMode).rx_hold = s.rx_hold := rfl
@[simp] theorem State.enterCommandMode_rx_queue (s : State) : (s.enterCommandMode).rx_queue = s.rx_queue := rfl
@[simp] theorem State.enterCommandMode_tx_sent (s : State) : (s.enterCommandMode).tx_sent = s.tx_sent := rfl
@[simp] theorem State.enterCommandMode_reinits (s : State) : (s.enterCommandMode).reinits = s.reinits := rfl
@[simp] theorem State.enterCommandMode_agenda (s : State) : (s.enterCommandMode).agenda = s.agenda := rfl
@[simp] theorem State.enterCommandMode_raised (s : State) : (s.enterCommandMode).raised = s.raised := rfl
@[simp] theorem State.enterCommandMode_power_ups (s : State) : (s.enterCommandMode).power_ups = s.power_ups := rfl

end Sys2Proof.Machine
end

