-- ==== Sys2Proof/Laws/Fetch.lean ====
section
/-! SUPPORT. The laws of the command buffer and the fetch. -/

namespace Sys2Proof.Machine

theorem frameWf_iff {f : List Byte} : frameWf f = true ↔ f.length ≤ 64 := decide_eq_true_iff

theorem State.fetch_cnt_toNat (s : State) {f : List Byte} (h : f.length ≤ 64) : (s.fetch f).cnt.toNat = f.length := by
  rw [State.fetch_cnt, BitVec.toNat_ofNat]
  omega

/-- After a fetch the buffer's byte `i` is the frame's, and beyond the frame the old one. -/
theorem State.fetch_cbufRead (s : State) (f : List Byte) (i : Nat) :
    (s.fetch f).cbufRead i = if h : i < f.length then f[i] else s.cbufRead i := by
  simp only [State.cbufRead, State.fetch_cbuf, State.fetch_power_ups, Memory.lookup_writeList]
  by_cases h : i < f.length
  · simp [h]
  · simp [h]

/-- After a fetch the frame in the buffer is the one fetched (42_engine_loop.md R170). -/
theorem State.fetch_frame (s : State) {f : List Byte} (h : f.length ≤ 64) : (s.fetch f).frame = f := by
  apply List.ext_getElem
  · rw [State.frame, List.length_map, List.length_range, s.fetch_cnt_toNat h]
  · intro i h1 h2
    simp [State.frame, State.fetch_cbufRead, h2]

theorem State.fetch_payload (s : State) {f : List Byte} (h : f.length ≤ 64) : (s.fetch f).payload = f.tail := by
  rw [State.payload, s.fetch_frame h]

/-- A fetch keeps the command buffer's canonical form. -/
theorem State.fetch_wf (s : State) {f : List Byte} (h : f.length ≤ 64) (hs : Memory.wf Config.CBUF_CAP s.cbuf = true) :
    Memory.wf Config.CBUF_CAP (s.fetch f).cbuf = true :=
  Memory.wf_writeList f hs (by simpa [Config.CBUF_CAP] using h)

/-- The frame that can be fetched is the head of the queue. -/
theorem State.rxFrame?_some {s : State} {f : List Byte} (h : s.rxFrame? = some f) :
    s.rx_hold = false ∧ s.rx_queue = f :: s.rx_queue.tail := by
  rw [State.rxFrame?] at h
  cases hh : s.rx_hold
  · rw [hh] at h
    exact ⟨rfl, List.eq_cons_of_mem_head? (by simpa using h)⟩
  · rw [hh] at h
    simp at h

theorem State.rxValid_eq_false {s : State} : s.rxValid = false ↔ s.rxFrame? = none := by
  simp [State.rxValid]

@[simp] theorem State.checkConfig_rxFrame? (s : State) : s.checkConfig.rxFrame? = s.rxFrame? := by
  rw [State.checkConfig]
  split <;> rfl

/-- Everything the configuration-change check writes. -/
theorem State.checkConfig_eq (s : State) :
    s.checkConfig = { s with reinits := if s.cfg_changed = true then s.reinits + 1 else s.reinits } := by
  rw [State.checkConfig]
  split <;> rfl

/-! ### The Transport -/

/-- Everything `setRxHold` writes. -/
theorem State.setRxHold_eq (b : Bool) (s : State) :
    s.setRxHold b = { s with rx_hold := if (b && s.cfg && s.rxValid) = true then s.rx_hold else b } := by
  rw [State.setRxHold]
  split <;> rfl

/-- Everything `loseFrames` writes. -/
theorem State.loseFrames_eq (s : State) : s.loseFrames = { s with rx_queue := if s.cfg = true then s.rx_queue else [] } := by
  rw [State.loseFrames]
  split <;> rfl

/-- A frame on offer over a configured link stays on offer (60_exceptions.md R256). -/
theorem State.setRxHold_rxFrame? {s : State} {f : List Byte} (b : Bool) (hc : s.cfg = true) (hf : s.rxFrame? = some f) :
    (s.setRxHold b).rxFrame? = some f := by
  have hv : s.rxValid = true := by rw [State.rxValid, hf]; rfl
  cases b
  · show ({ s with rx_hold := false } : State).rxFrame? = some f
    rw [State.rxFrame?, (State.rxFrame?_some hf).2]
    rfl
  · rw [State.setRxHold, if_pos (by rw [hc, hv]; rfl), hf]

theorem State.loseFrames_configured {s : State} (hc : s.cfg = true) : s.loseFrames = s := by rw [State.loseFrames, if_pos hc]

/-- A frame that arrives goes behind the one on offer. -/
theorem State.rxFrame?_append {s : State} {f : List Byte} (g : List (List Byte)) (hf : s.rxFrame? = some f) :
    ({ s with rx_queue := s.rx_queue ++ g } : State).rxFrame? = some f := by
  obtain ⟨hh, hq⟩ := State.rxFrame?_some hf
  rw [State.rxFrame?, hh, hq]
  rfl

end Sys2Proof.Machine
end

