-- ==== Sys2Proof/Laws/Ring.lean ====
section
/-! SUPPORT. The laws of the ring: slots, occupancy, `push`, `push_batch`, and the queue of unread Frames. -/

namespace Sys2Proof.Machine

/-! ### The capacity -/

/-- The index arithmetic's modulus as a numeral, which `omega` reads. -/
@[simp] theorem two_pow_IDXW : 2 ^ Config.IDXW = 65536 := rfl

theorem Params.cap_cases (p : Config.Params) : ∃ e, e < 9 ∧ p.cap = 128 * 2 ^ e := ⟨p.capExp.val, p.capExp.isLt, rfl⟩

theorem State.cap_bounds (s : State) : 128 ≤ s.cap ∧ s.cap ≤ 32768 := by
  obtain ⟨e, he, h⟩ := Params.cap_cases s.params
  rw [State.cap, h]
  interval_cases e <;> decide

theorem State.cap_pos (s : State) : 0 < s.cap := by have := s.cap_bounds; omega

/-- `CAP` divides `2^IDXW` (00_scope.md R6, 40_ring_buffer.md R121). -/
theorem State.cap_dvd (s : State) : s.cap ∣ 2 ^ Config.IDXW := by
  obtain ⟨e, he, h⟩ := Params.cap_cases s.params
  rw [State.cap, h]
  interval_cases e <;> decide

theorem State.cap_two_pow (s : State) : ∃ k, s.cap = 2 ^ k :=
  ⟨7 + s.params.capExp.val, by rw [State.cap, Config.Params.cap, Nat.pow_add]⟩

/-- Masking with `CAP - 1` is reducing modulo `CAP`. -/
theorem State.and_cap (s : State) (n : Nat) : n &&& (s.cap - 1) = n % s.cap := by
  obtain ⟨k, h⟩ := s.cap_two_pow
  rw [h, Nat.and_two_pow_sub_one_eq_mod]

/-! ### Slots and occupancy -/

theorem State.slot_lt (s : State) (i : Index) : s.slot i < s.cap := Nat.mod_lt _ s.cap_pos

theorem State.slot_add (s : State) (i : Index) (j : Nat) : s.slot (i + BitVec.ofNat Config.IDXW j) = (i.toNat + j) % s.cap := by
  rw [State.slot, BitVec.toNat_add, BitVec.toNat_ofNat, Nat.add_mod_mod, Nat.mod_mod_of_dvd _ s.cap_dvd]

theorem State.slot_def (s : State) (i : Index) : s.slot i = i.toNat % s.cap := rfl

/-- Slots at different distances below `CAP` differ. -/
theorem State.slot_add_inj (s : State) (i : Index) {j k : Nat} (hj : j < s.cap) (hk : k < s.cap)
    (h : s.slot (i + BitVec.ofNat Config.IDXW j) = s.slot (i + BitVec.ofNat Config.IDXW k)) : j = k := by
  rw [State.slot_add, State.slot_add] at h
  have h2 : j ≡ k [MOD s.cap] := Nat.ModEq.add_left_cancel' i.toNat h
  rwa [Nat.ModEq, Nat.mod_eq_of_lt hj, Nat.mod_eq_of_lt hk] at h2

theorem State.occupied_lt (s : State) : s.occupied < s.cap := Nat.mod_lt _ s.cap_pos

theorem State.occupied_le (s : State) : s.occupied ≤ s.cap - 1 := by have := s.occupied_lt; omega

theorem State.freeSpace_add_occupied (s : State) : s.freeSpace + s.occupied = s.cap - 1 := by
  have := s.occupied_le
  rw [State.freeSpace]
  omega

/-- The read cursor plus the occupancy is the write cursor, modulo `CAP`. -/
theorem State.read_add_occupied (s : State) : s.read_index.toNat + s.occupied ≡ s.write_index.toNat [MOD s.cap] := by
  have h1 : s.occupied ≡ (s.write_index - s.read_index).toNat [MOD s.cap] := Nat.mod_modEq _ _
  have h2 : s.read_index.toNat + (s.write_index - s.read_index).toNat ≡ s.write_index.toNat [MOD 2 ^ Config.IDXW] := by
    have hr := s.read_index.isLt
    have hw := s.write_index.isLt
    rw [Nat.ModEq, BitVec.toNat_sub]
    simp only [two_pow_IDXW] at *
    omega
  exact (Nat.ModEq.add_left _ h1).trans (h2.of_dvd s.cap_dvd)

/-- A number below `CAP` that leads from the read cursor to the write cursor is the occupancy. -/
theorem State.occupied_unique (s : State) {n : Nat} (hn : n < s.cap)
    (h : s.read_index.toNat + n ≡ s.write_index.toNat [MOD s.cap]) : s.occupied = n := by
  have h2 := Nat.ModEq.add_left_cancel' s.read_index.toNat (s.read_add_occupied.trans h.symm)
  rwa [Nat.ModEq, Nat.mod_eq_of_lt s.occupied_lt, Nat.mod_eq_of_lt hn] at h2

theorem State.occupied_eq_zero_iff (s : State) :
    s.occupied = 0 ↔ s.write_index.toNat % s.cap = s.read_index.toNat % s.cap := by
  constructor
  · intro h
    have := s.read_add_occupied
    rw [h] at this
    exact this.symm
  · intro h
    exact s.occupied_unique s.cap_pos h.symm

/-! ### Reads of the ring -/

/-- A `push` is seen in its slot and nowhere else. -/
theorem State.push_ringRead (f : Frame) (s : State) (a : Nat) :
    (s.push f).ringRead a = if s.slot s.write_index = a then f else s.ringRead a := by
  simp only [State.ringRead, State.push_ring, State.push_power_ups, Memory.lookup_write]
  split <;> rfl

@[simp] theorem State.push_cap (f : Frame) (s : State) : (s.push f).cap = s.cap := rfl

@[simp] theorem State.push_slot (f : Frame) (s : State) (i : Index) : (s.push f).slot i = s.slot i := rfl

/-! ### `push` of a list -/

@[simp] theorem State.pushAll_nil (s : State) : s.pushAll [] = s := rfl

@[simp] theorem State.pushAll_cons (f : Frame) (fs : List Frame) (s : State) :
    s.pushAll (f :: fs) = (s.push f).pushAll fs := rfl

/-- Everything that pushing a list writes: the ring, the write index, and `no_data` under the build parameter. -/
theorem State.pushAll_eq (fs : List Frame) (s : State) :
    s.pushAll fs = { s with
      ring := (s.pushAll fs).ring
      write_index := s.write_index + BitVec.ofNat Config.IDXW fs.length
      no_data := if s.params.noDataClearOnPush = true ∧ 0 < fs.length then false else s.no_data } := by
  induction fs generalizing s with
  | nil => simp
  | cons f fs ih =>
    have hw : s.write_index + 1 + BitVec.ofNat Config.IDXW fs.length = s.write_index + BitVec.ofNat Config.IDXW (f :: fs).length := by
      rw [List.length_cons, BitVec.ofNat_add, BitVec.add_assoc, BitVec.add_comm (1 : Word)]
      rfl
    rw [State.pushAll_cons, ih]
    apply State.ext <;> first | rfl | exact hw | skip
    simp only [State.push_params, State.push_no_data, List.length_cons]
    by_cases h : s.params.noDataClearOnPush = true <;> simp [h]

@[simp] theorem State.pushAll_write_index (fs : List Frame) (s : State) :
    (s.pushAll fs).write_index = s.write_index + BitVec.ofNat Config.IDXW fs.length := by rw [State.pushAll_eq]

@[simp] theorem State.pushAll_read_index (fs : List Frame) (s : State) : (s.pushAll fs).read_index = s.read_index := by
  rw [State.pushAll_eq]

@[simp] theorem State.pushAll_params (fs : List Frame) (s : State) : (s.pushAll fs).params = s.params := by
  rw [State.pushAll_eq]

@[simp] theorem State.pushAll_raised (fs : List Frame) (s : State) : (s.pushAll fs).raised = s.raised := by
  rw [State.pushAll_eq]

@[simp] theorem State.pushAll_cap (fs : List Frame) (s : State) : (s.pushAll fs).cap = s.cap := by
  rw [State.cap, State.pushAll_params, State.cap]

@[simp] theorem State.pushAll_slot (fs : List Frame) (s : State) (i : Index) : (s.pushAll fs).slot i = s.slot i := by
  rw [State.slot, State.pushAll_cap, State.slot]

/-- What a read of the ring gives after pushing a list: outside the slots pushed to, the old Frame. -/
theorem State.pushAll_ringRead_out (fs : List Frame) (s : State) (a : Nat)
    (h : ∀ j, j < fs.length → s.slot (s.write_index + BitVec.ofNat Config.IDXW j) ≠ a) :
    (s.pushAll fs).ringRead a = s.ringRead a := by
  induction fs generalizing s with
  | nil => rfl
  | cons f fs ih =>
    have h0 : s.slot s.write_index ≠ a := by simpa using h 0 (by simp)
    rw [State.pushAll_cons, ih, State.push_ringRead, if_neg h0]
    intro j hj
    have := h (j + 1) (by simpa using hj)
    rwa [BitVec.ofNat_add, BitVec.add_comm (BitVec.ofNat Config.IDXW j), ← BitVec.add_assoc] at this

/-- Pushing a list of at most `CAP` Frames: each is read back from its slot. -/
theorem State.pushAll_ringRead_in (fs : List Frame) (s : State) (hl : fs.length ≤ s.cap) {j : Nat} (hj : j < fs.length) :
    (s.pushAll fs).ringRead (s.slot (s.write_index + BitVec.ofNat Config.IDXW j)) = fs[j] := by
  induction fs generalizing s j with
  | nil => simp at hj
  | cons f fs ih =>
    simp only [List.length_cons] at hl hj
    rw [State.pushAll_cons]
    cases j with
    | zero =>
      rw [State.pushAll_ringRead_out, State.push_ringRead]
      · simp
      · intro k hk he
        have h2 : (s.push f).slot ((s.push f).write_index + BitVec.ofNat Config.IDXW k) =
            s.slot (s.write_index + BitVec.ofNat Config.IDXW (k + 1)) := by
          rw [State.push_slot, State.push_write_index, BitVec.ofNat_add, BitVec.add_comm (BitVec.ofNat Config.IDXW k),
            ← BitVec.add_assoc]
          rfl
        rw [h2] at he
        have := s.slot_add_inj s.write_index (by omega) s.cap_pos he
        omega
    | succ j =>
      have h2 : s.slot (s.write_index + BitVec.ofNat Config.IDXW (j + 1)) =
          (s.push f).slot ((s.push f).write_index + BitVec.ofNat Config.IDXW j) := by
        rw [State.push_slot, State.push_write_index, BitVec.ofNat_add, BitVec.add_comm (BitVec.ofNat Config.IDXW j),
          ← BitVec.add_assoc]
        rfl
      rw [h2, ih (s.push f) (by simpa using by omega) (by omega)]
      rfl

/-- A push inside the ring keeps its canonical form. -/
theorem State.pushAll_wf (fs : List Frame) (s : State) (h : Memory.wf s.cap s.ring = true) :
    Memory.wf s.cap (s.pushAll fs).ring = true := by
  induction fs generalizing s with
  | nil => exact h
  | cons f fs ih => exact ih (s.push f) (Memory.wf_write f h (s.slot_lt _))

/-! ### `push_batch` -/

/-- Everything `push_batch` does (40_ring_buffer.md R125): the first `free_space()` Frames are pushed, the excess raises E4. -/
theorem State.pushBatch_eq (fs : List Frame) (s : State) :
    s.pushBatch fs = { s.pushAll (fs.take s.freeSpace) with
      raised := if s.freeSpace < fs.length then s.raised ++ [.overrun] else s.raised } := by
  rw [State.pushBatch]
  by_cases h : s.freeSpace < fs.length
  · rw [if_pos h, if_pos h, State.raise, State.pushAll_raised]
  · rw [if_neg h, if_neg h]
    conv => lhs; rw [State.pushAll_eq]
    conv => rhs; rw [State.pushAll_eq]

/-- How many Frames of a batch are stored. -/
theorem State.stored_length (fs : List Frame) (s : State) : (fs.take s.freeSpace).length = min fs.length s.freeSpace := by
  rw [List.length_take, Nat.min_comm]

/-- Storing `n` Frames, no more than were free, adds `n` to the occupancy. -/
theorem State.occupied_add (s t : State) (n : Nat) (hn : n ≤ s.freeSpace) (hp : t.params = s.params)
    (hr : t.read_index = s.read_index) (hw : t.write_index = s.write_index + BitVec.ofNat Config.IDXW n) :
    t.occupied = s.occupied + n := by
  have hc : t.cap = s.cap := by rw [State.cap, hp, State.cap]
  have h1 := s.freeSpace_add_occupied
  have h2 := s.cap_pos
  apply t.occupied_unique
  · omega
  · rw [hr, hc, hw]
    have h3 : (s.write_index + BitVec.ofNat Config.IDXW n).toNat ≡ s.write_index.toNat + n [MOD s.cap] := by
      rw [BitVec.toNat_add, BitVec.toNat_ofNat, Nat.add_mod_mod]
      exact (Nat.mod_modEq _ (2 ^ Config.IDXW)).of_dvd s.cap_dvd
    have h4 := (s.read_add_occupied).add_right n
    rw [Nat.add_assoc] at h4
    exact h4.trans h3.symm

/-! ### The queue of unread Frames -/

@[simp] theorem State.unread_length (s : State) : s.unread.length = s.occupied := by simp [State.unread]

/-- `unread` looks at the ring's reads, the two indices and `CAP` only. -/
theorem State.unread_congr {s t : State} (hp : t.params = s.params) (hw : t.write_index = s.write_index)
    (hr : t.read_index = s.read_index) (hm : ∀ a, t.ringRead a = s.ringRead a) : t.unread = s.unread := by
  simp only [State.unread, State.occupied, State.slot, State.cap, hp, hw, hr, hm]

theorem State.unread_empty {s : State} (h : s.occupied = 0) : s.unread = [] := by simp [State.unread, h]

end Sys2Proof.Machine
end

