-- ==== Sys2Proof/Laws/Step.lean ====
section
/-! SUPPORT. What a step can do, said once: which agent acts, and for the Engine one lemma per phase. -/

namespace Sys2Proof.Machine

/-! ### Whose turn it is -/

/-- The acting state differs from the whole state in the agenda only. -/
theorem State.nextEvent_state (s : State) : s.nextEvent.2 = { s with agenda := s.agenda.tail } := by
  rw [State.nextEvent]
  cases h : s.agenda with
  | nil =>
    show s = _
    apply State.ext <;> first | rfl | exact h
  | cons e rest => rfl

theorem State.nextEvent_nil {s : State} (h : s.agenda = []) : s.nextEvent = (.engine, s) := by rw [State.nextEvent, h]

theorem State.nextEvent_cons {s : State} {e : Event} {rest : List Event} (h : s.agenda = e :: rest) :
    s.nextEvent = (e, { s with agenda := rest }) := by rw [State.nextEvent, h]

/-- A step is the event whose turn it is. -/
theorem step_of_turn {s u : State} {e : Event} (h : s.nextEvent = (e, u)) : step s = runEvent e u := by rw [step, h]

theorem step_engine {s u : State} (h : s.nextEvent = (.engine, u)) : step s = engineStep u := step_of_turn h

theorem step_idle_agenda {s : State} (h : s.agenda = []) : step s = engineStep s := step_engine (State.nextEvent_nil h)

/-- Everything the events of the Host and the Transport write: their own side of the interface. -/
theorem runEvent_input {e : Event} {u t : State} (h : runEvent e u = .next t) (h1 : e ≠ .engine) (h2 : e ≠ .latch) (h3 : e ≠ .powerUp) :
    t = { u with cfg := t.cfg, cfg_changed := t.cfg_changed, tx_ready := t.tx_ready, rx_hold := t.rx_hold, rx_queue := t.rx_queue } := by
  cases e with
  | engine => exact absurd rfl h1
  | latch => exact absurd rfl h2
  | powerUp => exact absurd rfl h3
  | hostSend f =>
    rw [runEvent] at h
    split at h <;> cases h
    rfl
  | setRxHold b =>
    cases h
    rw [State.setRxHold_eq]
  | dropFrames =>
    cases h
    rw [State.loseFrames_eq]
  | _ =>
    cases h
    rfl

/-- A run begins with its first step. -/
theorem core_run_succ (n : Nat) {s t : State} (h : step s = .next t) :
    Sys2Proof.core.run (n + 1) s = Sys2Proof.core.run n t := by
  have h2 : Sys2Proof.core.step s = .next t := h
  simp only [Host.Core.run, h2]

@[simp] theorem core_run_zero (s : State) : Sys2Proof.core.run 0 s = .next s := rfl

/-! ### The `CMD` step -/

/-- With a frame to fetch: check, fetch, dispatch. -/
theorem stepCmd_frame {u : State} {f : List Byte} (hc : u.cfg = true) (hf : u.rxFrame? = some f) (hl : f.length ≤ 64) :
    stepCmd u = dispatch (u.checkConfig.fetch f) := by
  rw [stepCmd, hc, State.checkConfig_rxFrame?, hf]
  simp only [if_pos (frameWf_iff.mpr hl)]

/-- With a frame that is too long: refused. -/
theorem stepCmd_long {u : State} {f : List Byte} (hc : u.cfg = true) (hf : u.rxFrame? = some f) (hl : ¬ f.length ≤ 64) :
    stepCmd u = .refused .frameTooLong := by
  rw [stepCmd, hc, State.checkConfig_rxFrame?, hf]
  simp only [if_neg (mt frameWf_iff.mp hl)]

/-- Without one: on to `FC`. -/
theorem stepCmd_none {u : State} (h : u.cfg = false ∨ u.rxFrame? = none) : stepCmd u = .next (u.checkConfig.goto .fc) := by
  rw [stepCmd, State.checkConfig_rxFrame?]
  rcases h with h | h
  · rw [h]
  · rw [h]
    cases u.cfg <;> rfl

/-- Dispatch after a fetch is dispatch on the fetched bytes. -/
theorem dispatch_fetch (u : State) {f : List Byte} (hl : f.length ≤ 64) :
    dispatch (u.fetch f) = match decode f with
      | .instr i => exec i (u.fetch f)
      | .unknownOpcode => .next ((u.fetch f).dropFrame .unknownOpcode)
      | .tooShort => .next ((u.fetch f).dropFrame .malformedPayload) := by
  cases h : decode f <;> simp only [dispatch, u.fetch_frame hl, h]

/-- The Engine's turn in `CMD` with a frame whose opcode is `o`. -/
theorem engineStep_cmd {u : State} {o : Op} {args : List Byte} {i : Instr} (hp : u.phase = .cmd) (hc : u.cfg = true)
    (hf : u.rxFrame? = some (o.code :: args)) (hl : (o.code :: args).length ≤ 64) (hd : decodeOperands o args = .instr i) :
    engineStep u = exec i (u.checkConfig.fetch (o.code :: args)) := by
  rw [engineStep, hp]
  simp only
  rw [stepCmd_frame hc hf hl, dispatch_fetch _ hl, decode_code, hd]

/-! ### The `LOAD_RX` step -/

theorem stepLoadRx_frame {u : State} {f : List Byte} (hf : u.rxFrame? = some f) (hl : f.length ≤ 64) :
    stepLoadRx u = .next (u.fetch f).loadBatch := by
  rw [stepLoadRx, hf]
  simp only [if_pos (frameWf_iff.mpr hl)]

theorem stepLoadRx_long {u : State} {f : List Byte} (hf : u.rxFrame? = some f) (hl : ¬ f.length ≤ 64) :
    stepLoadRx u = .refused .frameTooLong := by
  rw [stepLoadRx, hf]
  simp only [if_neg (mt frameWf_iff.mp hl)]

theorem stepLoadRx_none {u : State} (hf : u.rxFrame? = none) : stepLoadRx u = .next u := by rw [stepLoadRx, hf]

/-! ### What the Engine can do -/

/-- Every Engine step that answers a next state is one of these. -/
theorem engineStep_cases {u t : State} (h : engineStep u = .next t) :
    (u.phase = .fc ∧ t = u.stepFc) ∨ (u.phase = .fcTx ∧ t = u.stepFcTx) ∨ (u.phase = .ack ∧ t = u.stepAck) ∨
    (u.phase = .ackTx ∧ t = u.stepAckTx) ∨ (u.phase = .pingTx ∧ t = u.stepPingTx) ∨ (u.phase = .loadTx ∧ t = u.stepLoadTx) ∨
    (u.phase = .cmd ∧ (u.cfg = false ∨ u.rxFrame? = none) ∧ t = u.checkConfig.goto .fc) ∨
    (u.phase = .cmd ∧ u.cfg = true ∧ ∃ f, u.rxFrame? = some f ∧ f.length ≤ 64 ∧
      ((∃ i, decode f = .instr i ∧ exec i (u.checkConfig.fetch f) = .next t) ∨
       (decode f = .unknownOpcode ∧ t = (u.checkConfig.fetch f).dropFrame .unknownOpcode) ∨
       (decode f = .tooShort ∧ t = (u.checkConfig.fetch f).dropFrame .malformedPayload))) ∨
    (u.phase = .loadRx ∧ u.rxFrame? = none ∧ t = u) ∨
    (u.phase = .loadRx ∧ ∃ f, u.rxFrame? = some f ∧ f.length ≤ 64 ∧ t = (u.fetch f).loadBatch) := by
  cases hp : u.phase <;> simp only [engineStep, hp, Host.Outcome.next.injEq] at h
  case fc => simp [h]
  case fcTx => simp [h]
  case ack => simp [h]
  case ackTx => simp [h]
  case pingTx => simp [h]
  case loadTx => simp [h]
  case cmd =>
    by_cases hn : u.cfg = false ∨ u.rxFrame? = none
    · rw [stepCmd_none hn, Host.Outcome.next.injEq] at h
      simp [hn, h]
    · rw [not_or, Bool.not_eq_false] at hn
      obtain ⟨f, hf⟩ := Option.ne_none_iff_exists'.mp hn.2
      by_cases hl : f.length ≤ 64
      · rw [stepCmd_frame hn.1 hf hl, dispatch_fetch _ hl] at h
        have : (∃ i, decode f = .instr i ∧ exec i (u.checkConfig.fetch f) = .next t) ∨
            (decode f = .unknownOpcode ∧ t = (u.checkConfig.fetch f).dropFrame .unknownOpcode) ∨
            (decode f = .tooShort ∧ t = (u.checkConfig.fetch f).dropFrame .malformedPayload) := by
          cases hd : decode f <;> rw [hd] at h
          case instr i => exact .inl ⟨i, rfl, h⟩
          case unknownOpcode => exact .inr (.inl ⟨rfl, (Host.Outcome.next.inj h).symm⟩)
          case tooShort => exact .inr (.inr ⟨rfl, (Host.Outcome.next.inj h).symm⟩)
        exact .inr (.inr (.inr (.inr (.inr (.inr (.inr (.inl ⟨rfl, hn.1, f, hf, hl, this⟩)))))))
      · rw [stepCmd_long hn.1 hf hl] at h
        cases h
  case loadRx =>
    cases hf : u.rxFrame? with
    | none =>
      rw [stepLoadRx_none hf, Host.Outcome.next.injEq] at h
      simp [h]
    | some f =>
      by_cases hl : f.length ≤ 64
      · rw [stepLoadRx_frame hf hl, Host.Outcome.next.injEq] at h
        simp [hl, h]
      · rw [stepLoadRx_long hf hl] at h
        cases h

/-- The Engine's steps in three kinds: those that touch the phase, the two request flags and the Transport only; a dispatched frame; a
Load batch. -/
theorem engineStep_kinds {u t : State} (h : engineStep u = .next t) :
    (t = { u with phase := t.phase, fc_outstanding := t.fc_outstanding, ack_pending := t.ack_pending, tx_sent := t.tx_sent, reinits := t.reinits }) ∨
    (u.phase = .cmd ∧ u.cfg = true ∧ ∃ f, u.rxFrame? = some f ∧ f.length ≤ 64 ∧
      ((∃ i, decode f = .instr i ∧ exec i (u.checkConfig.fetch f) = .next t) ∨
       (decode f = .unknownOpcode ∧ t = (u.checkConfig.fetch f).dropFrame .unknownOpcode) ∨
       (decode f = .tooShort ∧ t = (u.checkConfig.fetch f).dropFrame .malformedPayload))) ∨
    (u.phase = .loadRx ∧ ∃ f, u.rxFrame? = some f ∧ f.length ≤ 64 ∧ t = (u.fetch f).loadBatch) := by
  rcases engineStep_cases h with ⟨hp, rfl⟩ | ⟨hp, rfl⟩ | ⟨hp, rfl⟩ | ⟨hp, rfl⟩ | ⟨hp, rfl⟩ | ⟨hp, rfl⟩ | ⟨hp, -, rfl⟩ | h | ⟨hp, -, rfl⟩ | h
  · exact .inl rfl
  · left; rw [State.stepFcTx]; split <;> rfl
  · exact .inl rfl
  · left; rw [State.stepAckTx]; split <;> rfl
  · left; rw [State.stepPingTx]; split <;> rfl
  · left; rw [State.stepLoadTx]; split <;> rfl
  · left; rw [State.checkConfig_eq]; rfl
  · exact .inr (.inl h)
  · exact .inl rfl
  · exact .inr (.inr h)

end Sys2Proof.Machine
end

