-- ==== Sys2Proof/Laws/Exec.lean ====
section
/-! SUPPORT. What a command can do, said once: batches, the three data-path commands, and what no command writes. -/

namespace Sys2Proof.Machine

/-! ### Operands -/

theorem flagOf_iff (b : Byte) : flagOf b = true ↔ b.toNat ≠ 0 := by
  simp only [flagOf, bne_iff_ne, ne_eq, ← BitVec.toNat_inj]
  rfl

theorem loadOperandLegal_iff (b : Byte) : loadOperandLegal b = true ↔ b.toNat = 1 ∨ b.toNat = 2 := by
  simp only [loadOperandLegal, Bool.or_eq_true, beq_iff_eq, ← BitVec.toNat_inj]
  rfl

/-! ### The channel words of a Frame -/

@[simp] theorem channelAt_one_zero (f : Frame) : channelAt f 1 0 = f.ch0 := rfl

@[simp] theorem channelAt_one_one (f : Frame) : channelAt f 1 1 = f.ch1 := rfl

@[simp] theorem channelAt_two_zero (f : Frame) : channelAt f 2 0 = f.ch2 := rfl

@[simp] theorem channelAt_two_one (f : Frame) : channelAt f 2 1 = f.ch3 := rfl

/-- A decoded block has each pair's word in the pair's place (10_state.md R21). -/
theorem channelAt_decodeBlock (p l d : Nat) (block : List Byte) {P L : Nat} (hP : P = 1 ∨ P = 2) (hL : L = 0 ∨ L = 1) :
    channelAt (decodeBlock p l d block) P L = channelOf p l d block P L := by
  rcases hP with rfl | rfl <;> rcases hL with rfl | rfl <;> rfl

/-! ### Batches -/

@[simp] theorem State.batchFrames_length (s : State) (payload : List Byte) :
    (s.batchFrames payload).length = payload.length / s.blocksize.toNat := by simp [State.batchFrames]

theorem blocksize_toNat_ne {s : State} (h : s.blocksize ≠ 0) : s.blocksize.toNat ≠ 0 :=
  fun h0 => h (by rw [← BitVec.toNat_inj]; exact h0)

/-- A payload of whole blocks decodes. -/
theorem State.decodeBatch_some {s : State} {payload : List Byte} (hb : s.blocksize ≠ 0)
    (hm : payload.length % s.blocksize.toNat = 0) : s.decodeBatch payload = some (s.batchFrames payload) := by
  simp only [State.decodeBatch, if_neg (blocksize_toNat_ne hb), hm, ne_eq, not_true_eq_false, if_false]

/-- Without a layout, or with a block cut short, it does not. -/
theorem State.decodeBatch_none {s : State} {payload : List Byte}
    (h : s.blocksize = 0 ∨ payload.length % s.blocksize.toNat ≠ 0) : s.decodeBatch payload = none := by
  rcases h with h | h
  · simp [State.decodeBatch, h]
  · simp only [State.decodeBatch]
    split
    · rfl
    · rfl

/-- Everything `push_batch` writes. -/
theorem State.pushBatch_frame (fs : List Frame) (s : State) :
    s.pushBatch fs = { s with
      ring := (s.pushBatch fs).ring
      write_index := s.write_index + BitVec.ofNat Config.IDXW (min fs.length s.freeSpace)
      no_data := if s.params.noDataClearOnPush = true ∧ 0 < min fs.length s.freeSpace then false else s.no_data
      raised := if s.freeSpace < fs.length then s.raised ++ [.overrun] else s.raised } := by
  conv => lhs; rw [State.pushBatch_eq, State.pushAll_eq, State.stored_length]
  rw [State.pushBatch_eq]

theorem State.pushBatch_ringRead (fs : List Frame) (s : State) (a : Nat) :
    (s.pushBatch fs).ringRead a = (s.pushAll (fs.take s.freeSpace)).ringRead a := by
  rw [State.pushBatch_eq]
  rfl

theorem State.pushBatch_occupied (fs : List Frame) (s : State) :
    (s.pushBatch fs).occupied = s.occupied + min fs.length s.freeSpace := by
  apply State.occupied_add
  · omega
  · rw [State.pushBatch_frame]
  · rw [State.pushBatch_frame]
  · rw [State.pushBatch_frame]

theorem State.pushBatch_wf (fs : List Frame) (s : State) (h : Memory.wf s.cap s.ring = true) :
    Memory.wf s.cap (s.pushBatch fs).ring = true := by
  rw [State.pushBatch_eq]
  exact State.pushAll_wf _ s h

/-- The queue of unread Frames grows at its end, by the Frames stored (40_ring_buffer.md R125). -/
theorem State.pushBatch_unread (fs : List Frame) (s : State) :
    (s.pushBatch fs).unread = s.unread ++ fs.take s.freeSpace := by
  have hsum := s.freeSpace_add_occupied
  have hpos := s.cap_pos
  have hst := State.stored_length fs s
  have hslot : ∀ i, (s.pushBatch fs).slot i = s.slot i := fun i => by rw [State.pushBatch_frame]; rfl
  have hri : (s.pushBatch fs).read_index = s.read_index := by rw [State.pushBatch_frame]
  apply List.ext_getElem
  · rw [State.unread_length, State.pushBatch_occupied, List.length_append, State.unread_length, hst]
  · intro j h1 h2
    rw [State.unread_length, State.pushBatch_occupied] at h1
    simp only [State.unread, List.getElem_map, List.getElem_range, hslot, hri, State.pushBatch_ringRead]
    by_cases hj : j < s.occupied
    · rw [List.getElem_append_left (by simpa using hj), State.pushAll_ringRead_out]
      · simp
      · intro k hk he
        rw [hst] at hk
        rw [State.slot_add, State.slot_add] at he
        have h3 : s.write_index.toNat + k ≡ s.read_index.toNat + j [MOD s.cap] := he
        have h4 := ((s.read_add_occupied).add_right k).trans h3
        rw [Nat.add_assoc] at h4
        have h5 := Nat.ModEq.add_left_cancel' s.read_index.toNat h4
        rw [Nat.ModEq, Nat.mod_eq_of_lt (by omega), Nat.mod_eq_of_lt (by omega)] at h5
        omega
    · have h3 : s.slot (s.read_index + BitVec.ofNat Config.IDXW j) = s.slot (s.write_index + BitVec.ofNat Config.IDXW (j - s.occupied)) := by
        rw [State.slot_add, State.slot_add]
        have h4 := (s.read_add_occupied).add_right (j - s.occupied)
        rwa [Nat.add_assoc, Nat.add_sub_cancel' (by omega)] at h4
      rw [h3, State.pushAll_ringRead_in _ s (by omega) (by rw [hst]; omega), List.getElem_append_right (by simpa using hj)]
      simp

/-- Everything that taking in a batch writes. -/
theorem State.acceptBatch_frame (payload : List Byte) (s : State) :
    s.acceptBatch payload = { s with
      ring := (s.acceptBatch payload).ring
      write_index := (s.acceptBatch payload).write_index
      no_data := (s.acceptBatch payload).no_data
      fc_outstanding := (s.acceptBatch payload).fc_outstanding
      raised := (s.acceptBatch payload).raised } := by
  rw [State.acceptBatch]
  split
  · rw [State.pushBatch_frame]
  · rfl

/-- A batch is decoded and pushed, or changes nothing but the ghost record. -/
theorem State.acceptBatch_cases (payload : List Byte) (s : State) :
    (∃ fs, s.decodeBatch payload = some fs ∧ s.acceptBatch payload = { s.pushBatch fs with fc_outstanding := false }) ∨
    (s.decodeBatch payload = none ∧ s.acceptBatch payload = s.raise .malformedPayload) := by
  rw [State.acceptBatch]
  cases s.decodeBatch payload with
  | none => exact .inr ⟨rfl, rfl⟩
  | some fs => exact .inl ⟨fs, rfl, rfl⟩

theorem State.acceptBatch_wf (payload : List Byte) (s : State) (h : Memory.wf s.cap s.ring = true) :
    Memory.wf s.cap (s.acceptBatch payload).ring = true := by
  rcases State.acceptBatch_cases payload s with ⟨fs, -, he⟩ | ⟨-, he⟩
  · rw [he]
    exact State.pushBatch_wf fs s h
  · rw [he]
    exact h

/-- What a batch does to the queue of unread Frames. -/
theorem State.acceptBatch_unread (payload : List Byte) (s : State) :
    ∃ fs, (s.acceptBatch payload).unread = s.unread ++ fs ∧ fs.length ≤ s.freeSpace := by
  rcases State.acceptBatch_cases payload s with ⟨fs, -, he⟩ | ⟨-, he⟩
  · refine ⟨fs.take s.freeSpace, ?_, ?_⟩
    · rw [he, ← State.pushBatch_unread]
      rfl
    · rw [State.stored_length]
      omega
  · refine ⟨[], ?_, Nat.zero_le _⟩
    rw [he, List.append_nil]
    rfl

/-! ### Load -/

/-- What an accepted Load leaves behind: a legal layout and its number of round trips. -/
theorem State.acceptLoad_layout (p d l ut : Byte) (s : State) (hp : p.toNat = 1 ∨ p.toNat = 2) (hd : d.toNat = 1 ∨ d.toNat = 2)
    (hl : l.toNat = 1 ∨ l.toNat = 2) :
    (s.acceptLoad p d l ut).ports.toNat = p.toNat ∧ (s.acceptLoad p d l ut).databits.toNat = d.toNat ∧
    (s.acceptLoad p d l ut).lines.toNat = l.toNat ∧
    (s.acceptLoad p d l ut).blocksize.toNat = p.toNat * d.toNat * l.toNat ∧
    (s.acceptLoad p d l ut).load_trips.toNat = 4 * (p.toNat * d.toNat * l.toNat) ∧
    1 ≤ p.toNat * d.toNat * l.toNat := by
  simp only [State.acceptLoad, BitVec.toNat_setWidth, BitVec.toNat_ofNat, Config.LOAD_FACTOR]
  rcases hp with h | h <;> rcases hd with h' | h' <;> rcases hl with h'' | h'' <;> rw [h, h', h''] <;> decide

/-- A Load is accepted, or dropped as E3 or E2. -/
theorem execLoad_cases (p d l ut : Byte) (s : State) :
    (s.mode ≠ .idle ∧ execLoad p d l ut s = .next (s.dropFrame .loadNotIdle)) ∨
    (s.mode = .idle ∧ (p.toNat = 1 ∨ p.toNat = 2) ∧ (d.toNat = 1 ∨ d.toNat = 2) ∧ (l.toNat = 1 ∨ l.toNat = 2) ∧
      execLoad p d l ut s = .next (s.acceptLoad p d l ut)) ∨
    (s.mode = .idle ∧ ¬ ((p.toNat = 1 ∨ p.toNat = 2) ∧ (d.toNat = 1 ∨ d.toNat = 2) ∧ (l.toNat = 1 ∨ l.toNat = 2)) ∧
      execLoad p d l ut s = .next (s.dropFrame .malformedPayload)) := by
  rw [execLoad]
  simp only [Bool.and_eq_true, loadOperandLegal_iff]
  by_cases hm : s.mode = .idle
  · by_cases ho : ((p.toNat = 1 ∨ p.toNat = 2) ∧ (d.toNat = 1 ∨ d.toNat = 2)) ∧ (l.toNat = 1 ∨ l.toNat = 2)
    · right; left
      exact ⟨hm, ho.1.1, ho.1.2, ho.2, by rw [if_neg (by simpa using hm), if_pos ho]⟩
    · right; right
      exact ⟨hm, by rwa [← and_assoc], by rw [if_neg (by simpa using hm), if_neg ho]⟩
  · left
    exact ⟨hm, by rw [if_pos hm]⟩

/-! ### Every command -/

/-- No command stops the machine. -/
theorem exec_answers_next (i : Instr) (s : State) : ∃ t, exec i s = .next t := by
  cases i with
  | load p d l ut =>
    rcases execLoad_cases p d l ut s with ⟨-, h⟩ | ⟨-, -, -, -, h⟩ | ⟨-, -, h⟩ <;> exact ⟨_, h⟩
  | _ => exact ⟨_, rfl⟩

/-- What no command writes: the build parameters, the command buffer, the Transport's side, the agenda, and the power-up count
(10_state.md R46). -/
theorem exec_leaves {i : Instr} {s t : State} (h : exec i s = .next t) :
    t.params = s.params ∧ t.cbuf = s.cbuf ∧ t.cnt = s.cnt ∧ t.cfg = s.cfg ∧ t.cfg_changed = s.cfg_changed ∧
    t.tx_ready = s.tx_ready ∧ t.rx_hold = s.rx_hold ∧ t.rx_queue = s.rx_queue ∧ t.tx_sent = s.tx_sent ∧
    t.reinits = s.reinits ∧ t.agenda = s.agenda ∧ t.power_ups = s.power_ups := by
  cases i with
  | load p d l ut =>
    rcases execLoad_cases p d l ut s with ⟨-, h'⟩ | ⟨-, -, -, -, h'⟩ | ⟨-, -, h'⟩ <;>
      (rw [exec, h'] at h; cases h; exact ⟨rfl, rfl, rfl, rfl, rfl, rfl, rfl, rfl, rfl, rfl, rfl, rfl⟩)
  | append payload =>
    rw [exec, execAppend, State.acceptBatch_frame] at h
    cases h
    exact ⟨rfl, rfl, rfl, rfl, rfl, rfl, rfl, rfl, rfl, rfl, rfl, rfl⟩
  | _ => cases h; exact ⟨rfl, rfl, rfl, rfl, rfl, rfl, rfl, rfl, rfl, rfl, rfl, rfl⟩

/-! ### The batch half of a Load round trip -/

/-- Everything the `LOAD_RX` step writes after its fetch. -/
theorem State.loadBatch_eq (s : State) :
    s.loadBatch = if s.load_trips = 1
      then { s.acceptBatch s.payload with
        load_trips := 0, cur_frame := (s.acceptBatch s.payload).peekCurrent, mode := .playing, phase := .fc }
      else { s.acceptBatch s.payload with load_trips := s.load_trips - 1, phase := .loadTx } := by
  have ht : (s.acceptBatch s.payload).load_trips = s.load_trips := by rw [State.acceptBatch_frame]
  have hz : (s.load_trips - 1 = 0) ↔ s.load_trips = 1 := by
    constructor
    · intro h; rw [← BitVec.sub_add_cancel s.load_trips 1, h]; rfl
    · intro h; rw [h]; rfl
  rw [State.loadBatch]
  simp only [ht, hz]
  split
  · rename_i h
    rw [State.finishLoad]
    simp only [h]
    rfl
  · rfl

/-! ### The command buffer -/

/-- No meaning looks at the command buffer: its operands came with the instruction. -/
theorem exec_buffer (i : Instr) (s : State) (m : List Host.Cell) (c : BitVec 7) :
    ∃ t, exec i s = .next t ∧ exec i { s with cbuf := m, cnt := c } = .next { t with cbuf := m, cnt := c } := by
  cases i with
  | load p d l ut =>
    rw [exec, exec, execLoad, execLoad]
    split
    · exact ⟨_, rfl, rfl⟩
    · split <;> exact ⟨_, rfl, rfl⟩
  | append pl =>
    refine ⟨_, rfl, ?_⟩
    rw [exec, execAppend, State.acceptBatch, State.acceptBatch]
    have : State.decodeBatch { s with cbuf := m, cnt := c } pl = s.decodeBatch pl := rfl
    rw [this]
    cases s.decodeBatch pl with
    | none => rfl
    | some fs =>
      simp only
      rw [State.pushBatch_frame, State.pushBatch_frame fs s]
      have hr : (State.pushBatch fs { s with cbuf := m, cnt := c }).ring = (s.pushBatch fs).ring := by
        rw [State.pushBatch_eq, State.pushBatch_eq]
        show (State.pushAll (fs.take s.freeSpace) { s with cbuf := m, cnt := c }).ring = (State.pushAll (fs.take s.freeSpace) s).ring
        generalize fs.take s.freeSpace = gs
        induction gs generalizing s with
        | nil => rfl
        | cons g gs ih => exact ih (s.push g) rfl
      rw [hr]; rfl
  | _ => exact ⟨_, rfl, rfl⟩

theorem State.acceptBatch_buffer (pl : List Byte) (s : State) (m : List Host.Cell) (c : BitVec 7) :
    State.acceptBatch pl { s with cbuf := m, cnt := c } = { s.acceptBatch pl with cbuf := m, cnt := c } := by
  obtain ⟨t, h1, h2⟩ := exec_buffer (.append pl) s m c
  rw [exec, execAppend] at h1 h2
  have e1 := Host.Outcome.next.inj h1
  have e2 := Host.Outcome.next.inj h2
  rw [← e1] at e2
  rw [State.acceptBatch_frame, State.acceptBatch_frame pl s]
  rw [State.ext_iff] at e2
  simp only [State.goto] at e2
  apply State.ext <;> first | rfl | simp only [e2]

end Sys2Proof.Machine
end

