-- ==== Sys2Proof/Laws/Invariant.lean ====
section
/-! SUPPORT. What keeps the invariant `State.Inv`, operation by operation. -/

namespace Sys2Proof.Machine

/-- Both memories of the state after power-up are in canonical form. -/
theorem reset_memories_wf : Memory.wf State.reset.cap State.reset.ring = true ∧ Memory.wf Config.CBUF_CAP State.reset.cbuf = true := ⟨rfl, rfl⟩

/-- The invariant does not look at the agenda. -/
theorem State.Inv.agenda {s : State} (h : s.Inv) (a : List Event) : ({ s with agenda := a } : State).Inv :=
  ⟨h.ring_wf, h.cbuf_wf, h.cnt_le, h.cbuf_written, h.queue_fits, h.layout, h.loading_iff, h.trips, h.request_once, h.ack_served, h.port2, h.autolatch⟩

/-- It holds of the state the next event acts on. -/
theorem State.Inv.next {s : State} (h : s.Inv) : s.nextEvent.2.Inv := by
  rw [State.nextEvent_state]; exact State.Inv.agenda h _

/-- A fetch keeps it. -/
theorem State.Inv.fetch {s : State} {f : List Byte} (h : s.Inv) (hl : f.length ≤ 64) : (s.fetch f).Inv := by
  refine ⟨h.ring_wf, State.fetch_wf s hl h.cbuf_wf, ?_, ?_, ?_, h.layout, h.loading_iff, h.trips, h.request_once, h.ack_served, h.port2, h.autolatch⟩
  · rw [s.fetch_cnt_toNat hl]; exact hl
  · intro i hi
    rw [s.fetch_cnt_toNat hl] at hi
    rw [State.fetch_cbuf, Memory.lookup_writeList, if_pos (by omega)]
    simp [hi]
  · intro g hg
    exact h.queue_fits g (List.mem_of_mem_tail hg)

/-- The configuration-change check keeps it. -/
theorem State.Inv.checkConfig {s : State} (h : s.Inv) : s.checkConfig.Inv := by
  rw [State.checkConfig_eq]
  exact ⟨h.ring_wf, h.cbuf_wf, h.cnt_le, h.cbuf_written, h.queue_fits, h.layout, h.loading_iff, h.trips, h.request_once, h.ack_served, h.port2,
      h.autolatch⟩

/-- A change of phase keeps it when the new phase fits the mode and the two flags. -/
theorem State.Inv.goto {s : State} (h : s.Inv) (p : Phase) (hm : s.mode = .loading ↔ p = .loadTx ∨ p = .loadRx)
    (hr : p = .fcTx → s.fc_outstanding = false) (ha : p = .ackTx → s.ack_pending = true) : (s.goto p).Inv :=
  ⟨h.ring_wf, h.cbuf_wf, h.cnt_le, h.cbuf_written, h.queue_fits, h.layout, hm, h.trips, hr, ha, h.port2, h.autolatch⟩

/-- It does not look at the ghost record. -/
theorem State.Inv.raise {s : State} (h : s.Inv) (c : Condition) : (s.raise c).Inv :=
  ⟨h.ring_wf, h.cbuf_wf, h.cnt_le, h.cbuf_written, h.queue_fits, h.layout, h.loading_iff, h.trips, h.request_once, h.ack_served, h.port2, h.autolatch⟩

/-- Taking in a batch keeps it. -/
theorem State.Inv.acceptBatch {s : State} (h : s.Inv) (hp : s.phase ≠ .fcTx) (p : List Byte) : (s.acceptBatch p).Inv := by
  have hw := State.acceptBatch_wf p s h.ring_wf
  rw [State.acceptBatch_frame]
  exact ⟨hw, h.cbuf_wf, h.cnt_le, h.cbuf_written, h.queue_fits, h.layout, h.loading_iff, h.trips, fun h => absurd h hp, h.ack_served, h.port2,
      h.autolatch⟩

/-- The Transport's own events keep it. -/
theorem State.Inv.setRxHold {s : State} (h : s.Inv) (b : Bool) : (s.setRxHold b).Inv := by
  rw [State.setRxHold_eq]
  exact ⟨h.ring_wf, h.cbuf_wf, h.cnt_le, h.cbuf_written, h.queue_fits, h.layout, h.loading_iff, h.trips, h.request_once,
    h.ack_served, h.port2, h.autolatch⟩

theorem State.Inv.loseFrames {s : State} (h : s.Inv) : s.loseFrames.Inv := by
  rw [State.loseFrames_eq]
  refine ⟨h.ring_wf, h.cbuf_wf, h.cnt_le, h.cbuf_written, ?_, h.layout, h.loading_iff, h.trips, h.request_once, h.ack_served,
    h.port2, h.autolatch⟩
  intro g hg
  simp only at hg
  split at hg
  · exact h.queue_fits g hg
  · exact absurd hg List.not_mem_nil

/-- RESET's assignments establish the mode, layout and phase parts, and keep the rest. -/
theorem State.Inv.resetCore {s : State} (h : s.Inv) : s.resetCore.Inv := by
  refine ⟨h.ring_wf, h.cbuf_wf, h.cnt_le, h.cbuf_written, h.queue_fits, .inl ⟨rfl, rfl, rfl, rfl, rfl⟩, ?_, .inr ⟨?_, rfl⟩, ?_, ?_, ⟨rfl, rfl⟩, rfl⟩
    <;> simp [State.resetCore]

/-- Every command, executed in `CMD`, keeps it. -/
theorem State.Inv.exec_keeps {i : Instr} {s t : State} (h : s.Inv) (hp : s.phase = .cmd) (ht : exec i s = .next t) : t.Inv := by
  have hm : ¬ s.mode = .loading := by rw [h.loading_iff, hp]; simp
  cases i with
  | reset => cases ht; exact State.Inv.resetCore h
  | load p d l ut =>
    rcases execLoad_cases p d l ut s with ⟨-, h'⟩ | ⟨hid, a, b, c, h'⟩ | ⟨-, -, h'⟩ <;> (rw [exec, h'] at ht; cases ht)
    · exact State.Inv.goto (State.Inv.raise h _) .fc (by simp [hm, State.raise]) (by simp) (by simp)
    · obtain ⟨h1, h2, h3, h4, h5, h6⟩ := State.acceptLoad_layout p d l ut s a b c
      refine ⟨h.ring_wf, h.cbuf_wf, h.cnt_le, h.cbuf_written, h.queue_fits, .inr ⟨by simp [State.acceptLoad], ?_⟩, by simp [State.acceptLoad],
          .inl ⟨rfl, by omega, ?_⟩, by simp [State.acceptLoad], by simp [State.acceptLoad], h.port2, h.autolatch⟩
      · rw [State.layoutLoaded, h1, h2, h3, h4]; exact ⟨a, c, b, rfl⟩
      · rw [h5, h4]
    · exact State.Inv.goto (State.Inv.raise h _) .fc (by simp [hm, State.raise]) (by simp) (by simp)
  | append pl =>
    cases ht
    have := State.Inv.acceptBatch h (by rw [hp]; simp) pl
    refine State.Inv.goto this .fc ?_ (by simp) (by simp)
    rw [State.acceptBatch_frame]; simp [hm]
  | resync =>
    cases ht
    have hl := h.layout
    refine ⟨h.ring_wf, h.cbuf_wf, h.cnt_le, h.cbuf_written, h.queue_fits, ?_, ?_, ?_, by simp, by simp, h.port2, h.autolatch⟩
    · show (ite _ _ _ = _ ∧ _) ∨ (ite _ _ _ ≠ _ ∧ _)
      split
      · simp_all
        exact hl
      · exact hl
    · simp only
      split <;> simp_all
    · show (ite _ _ _ = _ ∧ _) ∨ (ite _ _ _ ≠ _ ∧ _)
      have := h.trips
      simp only [hm, false_and, false_or] at this
      right
      refine ⟨?_, this.2⟩
      split <;> simp_all
  | alwidth v =>
    cases ht
    exact ⟨h.ring_wf, h.cbuf_wf, h.cnt_le, h.cbuf_written, h.queue_fits, h.layout, by simp [hm], h.trips, by simp, by simp, h.port2, rfl⟩
  | _ =>
    cases ht
    exact ⟨h.ring_wf, h.cbuf_wf, h.cnt_le, h.cbuf_written, h.queue_fits, h.layout, by simp [hm, State.goto], h.trips, by simp [State.goto],
        by simp [State.goto], h.port2, h.autolatch⟩

/-- The batch half of a Load round trip keeps it. -/
theorem State.Inv.loadBatch {s : State} (h : s.Inv) (hp : s.phase = .loadRx) : s.loadBatch.Inv := by
  have hm : s.mode = .loading := by rw [h.loading_iff, hp]; simp
  have ha := State.Inv.acceptBatch h (by rw [hp]; simp) s.payload
  have hf := State.acceptBatch_frame s.payload s
  have hl := h.layout
  have htr := h.trips
  simp only [hm, true_and, not_true_eq_false, false_and, or_false, ne_eq, reduceCtorEq, not_false_eq_true, false_or] at hl htr
  rw [State.loadBatch_eq]
  split
  · rename_i h1
    refine ⟨ha.ring_wf, ha.cbuf_wf, ha.cnt_le, ha.cbuf_written, ha.queue_fits, .inr ⟨by simp, ?_⟩, by simp, .inr ⟨by simp, rfl⟩, by simp,
        by simp, ha.port2, ha.autolatch⟩
    rw [hf]; exact hl
  · rename_i h1
    have h2 : (s.load_trips - 1).toNat = s.load_trips.toNat - 1 := by
      rw [BitVec.toNat_sub]; have := s.load_trips.isLt; have := htr.1
      simp; omega
    have h3 : s.load_trips.toNat ≠ 1 := fun hh => h1 (by rw [← BitVec.toNat_inj]; exact hh)
    refine ⟨ha.ring_wf, ha.cbuf_wf, ha.cnt_le, ha.cbuf_written, ha.queue_fits, ?_, ?_, ?_, by simp, by simp, ha.port2, ha.autolatch⟩
    · rw [hf]; exact .inr ⟨by simp [hm], hl⟩
    · rw [hf]; simp [hm]
    · rw [hf]; left; refine ⟨hm, ?_, ?_⟩
      · show 1 ≤ (s.load_trips - 1).toNat
        omega
      · show (s.load_trips - 1).toNat ≤ _ * s.blocksize.toNat
        omega

end Sys2Proof.Machine
end

