-- ==== Sys2Proof/Laws/Latch.lean ====
section
/-! SUPPORT. What a latch event can do, said once, and its effect on the queue of unread Frames. -/

namespace Sys2Proof.Machine

/-- Everything a latch event writes (41_mode_state_machine.md R146). -/
theorem State.latch_eq (u : State) : u.latch = { u with
      read_index := u.read_index + 1
      mode := if u.mode = .playing ∧ u.cmd_armed = true ∧ u.read_index + 1 = u.cmd_mode_start then .commandMode else u.mode
      ack_pending := if u.mode = .playing ∧ u.cmd_armed = true ∧ u.read_index + 1 = u.cmd_mode_start then true else u.ack_pending
      cmd_armed := if u.mode = .playing ∧ u.cmd_armed = true ∧ u.read_index + 1 = u.cmd_mode_start then false else u.cmd_armed
      raised := if u.occupied = 0 then u.raised ++ [.underrun] else u.raised } := by
  have h1 : (if u.occupied = 0 then u.raise .underrun else u) = { u with raised := if u.occupied = 0 then u.raised ++ [.underrun] else u.raised } := by
    split <;> rfl
  rw [State.latch, h1]
  simp only [State.tickMatch, State.advanceRead, State.enterCommandMode, Bool.and_eq_true, beq_iff_eq, and_assoc]
  split <;> rfl

/-- On a ring that is not empty, a latch event takes the oldest Frame off the queue. -/
theorem State.latch_unread {u : State} (h : u.occupied ≠ 0) : u.latch.unread = u.unread.tail := by
  have hcap : u.latch.cap = u.cap := by rw [State.latch_eq]; rfl
  have hslot : ∀ i, u.latch.slot i = u.slot i := fun i => by rw [State.latch_eq]; rfl
  have hr : ∀ i, u.latch.ringRead i = u.ringRead i := fun i => by rw [State.latch_eq]; rfl
  have hri : u.latch.read_index = u.read_index + 1 := by rw [State.latch_eq]
  have ho : u.latch.occupied = u.occupied - 1 := by
    apply State.occupied_unique
    · have := u.occupied_lt; omega
    · have h1 := u.read_add_occupied
      have hw : u.latch.write_index = u.write_index := by rw [State.latch_eq]
      rw [hcap, hw, hri]
      have h4 : (u.read_index + 1).toNat ≡ u.read_index.toNat + 1 [MOD u.cap] := by
        rw [BitVec.toNat_add]; exact (Nat.mod_modEq _ (2 ^ Config.IDXW)).of_dvd u.cap_dvd
      have h5 := h4.add_right (u.occupied - 1)
      rw [Nat.add_assoc, Nat.add_sub_cancel' (by omega)] at h5
      exact h5.trans h1
  apply List.ext_getElem
  · simp [ho]
  · intro j h1 h2
    simp only [State.unread, List.getElem_map, List.getElem_range, List.getElem_tail, hslot, hr, hri]
    rw [BitVec.ofNat_add, BitVec.add_comm (BitVec.ofNat Config.IDXW j), ← BitVec.add_assoc]; rfl

/-- On an empty ring, it leaves the ring looking full (40_ring_buffer.md R130). -/
theorem State.latch_occupied_empty {u : State} (h : u.occupied = 0) : u.latch.occupied = u.cap - 1 := by
  have hc := u.cap_bounds
  have hcap : u.latch.cap = u.cap := by rw [State.latch_eq]; rfl
  apply State.occupied_unique
  · rw [hcap]; omega
  · rw [hcap]
    have h1 : u.latch.read_index = u.read_index + 1 := by rw [State.latch_eq]
    have h2 : u.latch.write_index = u.write_index := by rw [State.latch_eq]
    rw [h1, h2]
    have h3 := u.occupied_eq_zero_iff.mp h
    have h4 : (u.read_index + 1).toNat ≡ u.read_index.toNat + 1 [MOD u.cap] := by
      rw [BitVec.toNat_add]; exact (Nat.mod_modEq _ (2 ^ Config.IDXW)).of_dvd u.cap_dvd
    have h5 := (h4.add_right (u.cap - 1))
    rw [Nat.add_assoc, Nat.add_sub_cancel' (by omega)] at h5
    exact h5.trans ((by simp [Nat.ModEq] : u.read_index.toNat + u.cap ≡ u.read_index.toNat [MOD u.cap]).trans (Nat.ModEq.symm h3))

/-- The oldest unread Frame is the current one (40_ring_buffer.md R123). -/
theorem State.unread_head {s : State} (h : s.occupied ≠ 0) : s.unread.head? = some s.peekCurrent := by
  rw [State.unread, List.head?_map, List.head?_range, if_neg h]
  simp [State.peekCurrent]

/-- Two states with the same ring, indices, capacity and power-up count hold the same queue. -/
theorem State.unread_of_ring {s t : State} (hp : t.params = s.params) (hw : t.write_index = s.write_index) (hr : t.read_index = s.read_index)
   (hm : t.ring = s.ring) (hq : t.power_ups = s.power_ups) : t.unread = s.unread :=
  State.unread_congr hp hw hr fun a => by rw [State.ringRead, hm, hq, State.ringRead]

end Sys2Proof.Machine
end

