-- ==== Sys2Proof/Laws/PerInstr.lean ====
section
/-! SUPPORT. The family `FrameForm`, one lemma per command: the encoding begins with the command's opcode, is at least as long as its format
asks (exactly so long for a fixed format), and fits in a frame. -/

namespace Sys2Proof.Laws.FrameForm

/-- The form of a command's frame (30_encoding.md R90, R93, R94, R95). -/
def Statement (i : Instr) : Prop :=
  i.wf = true → (encode i).head? = some i.op.code ∧ i.op.format.minCnt ≤ (encode i).length ∧
    (i.op.format ≠ .fbatch → (encode i).length = i.op.format.minCnt) ∧ frameWf (encode i) = true

theorem reset : Statement .reset := fun _ => by decide

theorem load (ports databits lines useTimer : Byte) : Statement (.load ports databits lines useTimer) :=
  fun _ => ⟨rfl, Nat.le_refl _, fun _ => rfl, rfl⟩

theorem append (payload : List Byte) : Statement (.append payload) := fun h => by
  refine ⟨rfl, Nat.succ_le_succ (Nat.zero_le _), fun hf => absurd rfl hf, ?_⟩
  rw [Instr.wf, decide_eq_true_iff] at h
  rw [frameWf, decide_eq_true_iff]
  exact h

theorem winper1 (v16 : Word) : Statement (.winper1 v16) := fun _ => ⟨rfl, Nat.le_refl _, fun _ => rfl, rfl⟩

theorem winoff1 (v16 : Word) : Statement (.winoff1 v16) := fun _ => ⟨rfl, Nat.le_refl _, fun _ => rfl, rfl⟩

theorem tmroff : Statement .tmroff := fun _ => by decide

theorem tmron : Statement .tmron := fun _ => by decide

theorem clkdiv1 (v8 : Byte) : Statement (.clkdiv1 v8) := fun _ => ⟨rfl, Nat.le_refl _, fun _ => rfl, rfl⟩

theorem clkdiv2 (v8 : Byte) : Statement (.clkdiv2 v8) := fun _ => ⟨rfl, Nat.le_refl _, fun _ => rfl, rfl⟩

theorem alcfg (en sel : Byte) : Statement (.alcfg en sel) := fun _ => ⟨rfl, Nat.le_refl _, fun _ => rfl, rfl⟩

theorem alwidth (v8 : Byte) : Statement (.alwidth v8) := fun _ => ⟨rfl, Nat.le_refl _, fun _ => rfl, rfl⟩

theorem arm (v16 : Word) : Statement (.arm v16) := fun _ => ⟨rfl, Nat.le_refl _, fun _ => rfl, rfl⟩

theorem resync : Statement .resync := fun _ => by decide

theorem ping : Statement .ping := fun _ => by decide

end Sys2Proof.Laws.FrameForm
end

