-- ==== Sys2Proof/Tests/Slice0.lean ====
section
/-! SUPPORT. The model's own tests: well-formedness, decoding, one step per command, and a witness for the hypotheses of each statement. The
expected values of the step tests are those of 95_test_vectors.md, whose vector each name gives (V60 and so on). -/

namespace Sys2Proof.Tests

open Sys2Proof.Machine

/-! ### Well-formedness -/

/-- A batch of 64 payload bytes does not fit behind its opcode (20_memory.md R66); the other commands are well-formed by their types. -/
theorem test_wf_append_64_refused : (Instr.append (List.replicate 64 0)).wf = false := by decide

theorem test_wf_append_63_accepted : (Instr.append (List.replicate 63 0)).wf = true := by decide

/-- A frame of 65 bytes is none (42_engine_loop.md R170). -/
theorem test_frame_65_refused : frameWf (List.replicate 65 0) = false := by decide

theorem test_frame_64_accepted : frameWf (List.replicate 64 0) = true := by decide

/-! ### Decoding: the bytes are written out from 30_encoding.md R93, R95 -/

theorem test_decode_reset : decode [0x00#8] = .instr .reset := by decide

theorem test_decode_load : decode [0x01#8, 0x02#8, 0x01#8, 0x02#8, 0x80#8] = .instr (.load 2 1 2 0x80) := by decide

theorem test_decode_append : decode [0x0F#8, 0x12#8, 0x34#8] = .instr (.append [0x12, 0x34]) := by decide

theorem test_decode_winper1 : decode [0xA0#8, 0x12#8, 0x34#8] = .instr (.winper1 4660) := by decide

theorem test_decode_winoff1 : decode [0xA1#8, 0x00#8, 0x10#8] = .instr (.winoff1 16) := by decide

theorem test_decode_tmroff : decode [0xA2#8] = .instr .tmroff := by decide

theorem test_decode_tmron : decode [0xA3#8] = .instr .tmron := by decide

theorem test_decode_clkdiv1 : decode [0xA4#8, 0x05#8] = .instr (.clkdiv1 5) := by decide

theorem test_decode_clkdiv2 : decode [0xB4#8, 0x07#8] = .instr (.clkdiv2 7) := by decide

theorem test_decode_alcfg : decode [0xC0#8, 0x01#8, 0x03#8] = .instr (.alcfg 1 3) := by decide

theorem test_decode_alwidth : decode [0xC1#8, 0x08#8] = .instr (.alwidth 8) := by decide

theorem test_decode_arm : decode [0xD0#8, 0xFF#8, 0xFE#8] = .instr (.arm 65534) := by decide

theorem test_decode_resync : decode [0xD1#8] = .instr .resync := by decide

theorem test_decode_ping : decode [0xFF#8, 0x01#8, 0x02#8, 0x03#8] = .instr .ping := by decide

/-- V80, V81, V82: no opcode. -/
theorem test_decode_unknown : decode [0x02#8] = .unknownOpcode ∧ decode [0xB0#8, 0x12#8, 0x34#8] = .unknownOpcode ∧
    decode [] = .unknownOpcode := by decide

/-- V83 to V87: one byte short of the format. -/
theorem test_decode_short : decode [0xA0#8, 0x12#8] = .tooShort ∧ decode [0xA4#8] = .tooShort ∧ decode [0xD0#8, 0x00#8] = .tooShort ∧
    decode [0xC0#8, 0x01#8] = .tooShort ∧ decode [0x01#8, 0x01#8, 0x01#8, 0x01#8] = .tooShort := by decide

/-- Exactly 14 of the 256 opcode bytes are taken (30_encoding.md R96). -/
theorem test_fourteen_opcodes :
    ((List.range 256).filter fun b => (Op.ofByte (BitVec.ofNat 8 b)).isSome).length = 14 := by decide

/-- An opcode-table word is laid out as the table numbers it, and its missing operand bytes are zero. -/
theorem test_table_word : decodeTableWord 8 0xA0 = some (.winper1 0) ∧ decodeTableWord 24 0x3412A0 = some (.winper1 0x1234) := by decide

/-! ### States -/

/-- After power-up, linked, ready to send, about to fetch. -/
def ready : State := { State.reset with cfg := true, tx_ready := true, phase := .cmd }

/-- A Frame with one channel word in use. -/
def one (w : Word) : Frame := ⟨w, 0xFFFF, 0xFFFF, 0xFFFF⟩

/-- STATE P of 95_test_vectors.md, about to fetch. -/
def stateP : State :=
  { ready with mode := .playing, ports := 1, lines := 1, databits := 1, blocksize := 1, write_index := 4
               ring := [(0, one 0xAB00), (1, one 0x0100), (2, one 0x0200), (3, one 0xFF00)]
               cur_frame := one 0xAB00, fc_outstanding := true }

/-- A state with one frame waiting. -/
def withFrame (s : State) (f : List Byte) : State := { s with rx_queue := [f] }

/-- In a Load of one byte per block, waiting for its batch. -/
def loading (trips : BitVec 6) (f : List Byte) : State :=
  { ready with mode := .loading, phase := .loadRx, ports := 1, lines := 1, databits := 1, blocksize := 1
               load_trips := trips, rx_queue := [f] }

/-- Does a step answer a next state that passes the check? -/
def answers (o : Host.Outcome State Fault Refusal) (p : State → Bool) : Bool :=
  match o with
  | .next t => p t
  | .fault _ => false
  | .refused _ => false

/-- One step from `s` with the frame `f` waiting. -/
def stepWith (s : State) (f : List Byte) (p : State → Bool) : Bool := answers (step (withFrame s f)) p

/-! ### One step per command -/

/-- V30. -/
theorem test_V30_reset : stepWith { ready with mode := .commandMode, write_index := 0x0123, read_index := 0x0100, ack_pending := true }
    [0x00#8] (fun t => t.mode == .idle && t.write_index == 0 && t.read_index == 0 && !t.ack_pending && t.win_period1 == 2500) = true := by
  decide

/-- V40. -/
theorem test_V40_load : stepWith ready [0x01#8, 0x02#8, 0x02#8, 0x02#8, 0x01#8]
    (fun t => t.ports == 2 && t.databits == 2 && t.lines == 2 && t.use_timer && t.blocksize == 8 && t.load_trips == 32 &&
      t.mode == .loading && t.phase == .loadTx) = true := by decide

/-- V42: the operands' order, and a non-zero flag byte. -/
theorem test_V42_load : stepWith ready [0x01#8, 0x02#8, 0x01#8, 0x01#8, 0x80#8]
    (fun t => t.ports == 2 && t.databits == 1 && t.lines == 1 && t.blocksize == 2 && t.use_timer) = true := by decide

/-- V92: E3 before the operand range. -/
theorem test_V92_load : stepWith stateP [0x01#8, 0x03#8, 0x01#8, 0x01#8, 0x00#8]
    (fun t => t.raised == [.loadNotIdle] && t.mode == .playing && t.blocksize == 1) = true := by decide

/-- V48. -/
theorem test_V48_append : stepWith stateP [0x0F#8, 0x10#8, 0x20#8]
    (fun t => t.ringRead 4 == one 0x1000 && t.ringRead 5 == one 0x2000 && t.ringRead 3 == one 0xFF00 && t.write_index == 6 &&
      !t.fc_outstanding) = true := by decide

/-- V50: tail-drop. -/
theorem test_V50_append : stepWith { stateP with write_index := 0x007E } [0x0F#8, 0x0A#8, 0x0B#8, 0x0C#8]
    (fun t => t.ringRead 126 == one 0x0A00 && t.write_index == 0x007F && t.occupied == 127 && t.raised == [.overrun] &&
      !t.fc_outstanding) = true := by decide

/-- V61. -/
theorem test_V61_winper1 : stepWith ready [0xA0#8, 0x12#8, 0x34#8]
    (fun t => t.win_period1 == 4660 && t.win_period2 == 2500 && t.phase == .fc) = true := by decide

/-- V63. -/
theorem test_V63_winoff1 : stepWith ready [0xA1#8, 0x00#8, 0x10#8] (fun t => t.win_offset1 == 16 && t.win_offset2 == 0) = true := by decide

/-- V66. -/
theorem test_V66_tmroff : stepWith { ready with use_timer := true, timer_ready := true } [0xA2#8]
    (fun t => !t.use_timer && t.timer_ready) = true := by decide

/-- V65. -/
theorem test_V65_tmron : stepWith ready [0xA3#8] (fun t => t.use_timer && t.timer_ready) = true := by decide

/-- V67. -/
theorem test_V67_clkdiv1 : stepWith ready [0xA4#8, 0x05#8] (fun t => t.clk_div1 == 5 && t.clk_div2 == 2) = true := by decide

/-- V68. -/
theorem test_V68_clkdiv2 : stepWith ready [0xB4#8, 0x07#8] (fun t => t.clk_div2 == 7 && t.clk_div1 == 2) = true := by decide

/-- V72. -/
theorem test_V72_alcfg : stepWith { ready with al_clksel := 3 } [0xC0#8, 0x80#8, 0x00#8] (fun t => t.al_en && t.al_clksel == 0) = true := by
  decide

/-- V74. -/
theorem test_V74_alwidth : stepWith ready [0xC1#8, 0xFF#8] (fun t => t.al_width == 255 && t.al_div == 255) = true := by decide

/-- V56. -/
theorem test_V56_arm : stepWith ready [0xD0#8, 0xFF#8, 0xFE#8] (fun t => t.cmd_mode_start == 0xFFFE && t.cmd_armed && t.mode == .idle) = true := by
  decide

/-- V52. -/
theorem test_V52_resync : stepWith { ready with mode := .commandMode, write_index := 0x0010, read_index := 2 } [0xD1#8]
    (fun t => t.no_data && t.read_index == 0x0010 && t.occupied == 0 && t.mode == .playing && t.phase == .pingTx) = true := by decide

/-- V57. -/
theorem test_V57_ping : stepWith stateP [0xFF#8] (fun t => t.phase == .pingTx && t.mode == .playing && t.tx_sent == []) = true := by decide

/-- V57, the reply. -/
theorem test_V57_pong : answers (step { stateP with phase := .pingTx }) (fun t => t.tx_sent == [0xFF] && t.phase == .fc) = true := by decide

/-- V20 and V25: the tick is compared on all 16 bits, after the advance. -/
theorem test_V20_latch :
    answers (step { stateP with agenda := [.latch], cmd_armed := true, cmd_mode_start := 2, read_index := 1 })
      (fun t => t.read_index == 2 && t.mode == .commandMode && t.ack_pending && !t.cmd_armed) = true ∧
    answers (step { stateP with agenda := [.latch], cmd_armed := true, cmd_mode_start := 0x82, read_index := 1 })
      (fun t => t.read_index == 2 && t.mode == .playing && !t.ack_pending && t.cmd_armed) = true := by decide

/-- V31 and V32: the flow-control threshold is strict. -/
theorem test_V31_threshold :
    answers (step { stateP with phase := .fc, fc_outstanding := false, write_index := 0x40, read_index := 2 }) (fun t => t.phase == .ack) = true ∧
    answers (step { stateP with phase := .fc, fc_outstanding := false, write_index := 0x40, read_index := 3 }) (fun t => t.phase == .fcTx) = true := by
  decide

/-- V5 and V6: occupancy across the 16-bit wrap and modulo `CAP`. -/
theorem test_V5_occupied : ({ ready with write_index := 2, read_index := 0xFFFE } : State).occupied = 4 ∧
    ({ ready with write_index := 0x180, read_index := 0x100 } : State).freeSpace = 127 := by decide

/-- V102: in `LOAD_RX` the frame `A0 12 34` is a batch. -/
theorem test_V102_load_batch : answers (step { loading 6 [0xA0#8, 0x12#8, 0x34#8] with databits := 2, blocksize := 2 })
    (fun t => t.ringRead 0 == one 0x1234 && t.write_index == 1 && t.load_trips == 5 && t.mode == .loading && t.win_period1 == 2500) = true := by
  decide

/-- V45 and V43: the row-major order of a block. -/
theorem test_V45_blocks : decodeBlock 2 1 1 [0x11, 0x22] = ⟨0x1100, 0xFFFF, 0x2200, 0xFFFF⟩ ∧
    decodeBlock 2 2 2 [0x12, 0x34, 0x56, 0x78, 0x9A, 0xBC, 0xDE, 0xF0] = ⟨0x1234, 0x5678, 0x9ABC, 0xDEF0⟩ := by decide

/-- `withFetchWord` makes the next step run the word. -/
theorem test_withFetchWord : answers (step (State.reset.withFetchWord 16 0x05A4)) (fun t => t.clk_div1 == 5) = true := by decide

/-- 60_exceptions.md R256 and 42_engine_loop.md R161: an offered frame is withdrawn only while the link is not configured. -/
theorem test_R256_rx_valid_held :
    answers (step { withFrame ready [0xFF#8] with agenda := [.setRxHold true] }) State.rxValid = true ∧
    answers (step { withFrame ready [0xFF#8] with agenda := [.setRxHold true], cfg := false }) (fun t => !t.rxValid) = true := by decide

/-- 70_reset_and_hazards.md R271: RESET leaves the Transport's queue, power-up does not. -/
theorem test_R271_queue :
    answers (exec .reset (withFrame ready [0xFF#8])) (fun t => t.rx_queue == [[0xFF]]) = true ∧
    answers (step { withFrame ready [0xFF#8] with agenda := [.powerUp] }) (fun t => t.rx_queue == []) = true := by decide

/-- 10_state.md R21: the word of the pair `(P, L)` is `ch[2*(P-1) + L]`. -/
theorem test_R21_words : (Frame.words ⟨1, 2, 3, 4⟩).toList = [1, 2, 3, 4] ∧ channelAt ⟨1, 2, 3, 4⟩ 2 0 = 3 := by decide

/-! ### Witnesses: concrete states that meet the hypotheses of the statements -/

/-- The hypotheses that the statements about a frame fetched in `CMD` share. -/
def Fetches (s u : State) (f : List Byte) : Prop :=
  s.nextEvent = (.engine, u) ∧ u.phase = .cmd ∧ u.cfg = true ∧ u.rxFrame? = some f

theorem fetches_ready (f : List Byte) : Fetches (withFrame ready f) (withFrame ready f) f := ⟨rfl, rfl, rfl, rfl⟩

/-- The longest tail of a frame after `n` bytes. -/
def fill (n : Nat) : List Byte := List.replicate (64 - n) 0x55

theorem ready_inv : State.Inv ready :=
  ⟨rfl, rfl, by decide, fun i h => absurd h (Nat.not_lt_zero i), fun f h => absurd h List.not_mem_nil, .inl ⟨rfl, rfl, rfl, rfl, rfl⟩,
    by decide, by decide, by decide, by decide, ⟨rfl, rfl⟩, rfl⟩

theorem one_byte_layout : State.layoutLoaded stateP := by unfold State.layoutLoaded; decide

theorem stateP_inv (f : List Byte) (h : f.length ≤ 64) : State.Inv (withFrame stateP f) :=
  ⟨rfl, rfl, Nat.zero_le _, fun i h => absurd h (Nat.not_lt_zero i),
    fun g hg => by rw [List.mem_singleton.mp hg]; exact frameWf_iff.mpr h,
    .inr ⟨nofun, one_byte_layout⟩, ⟨nofun, nofun⟩, .inr ⟨nofun, rfl⟩, nofun, nofun, ⟨rfl, rfl⟩, rfl⟩

theorem loading_inv (trips : BitVec 6) (f : List Byte) (h : f.length ≤ 64) (h1 : 1 ≤ trips.toNat) (h4 : trips.toNat ≤ 4) :
    State.Inv (loading trips f) :=
  ⟨rfl, rfl, Nat.zero_le _, fun i h => absurd h (Nat.not_lt_zero i),
    fun g hg => by rw [List.mem_singleton.mp hg]; exact frameWf_iff.mpr h,
    .inr ⟨nofun, one_byte_layout⟩, ⟨fun _ => .inr rfl, fun _ => rfl⟩, .inl ⟨rfl, h1, h4⟩, nofun, nofun, ⟨rfl, rfl⟩, rfl⟩

theorem witness_EveryStepKeepsInvariant :
    ∃ s t : State, s.Inv ∧ step s = .next t ∧ t.write_index ≠ s.write_index :=
  ⟨withFrame stateP [0x0F#8, 0x10#8], _, stateP_inv _ (by decide), rfl, by decide⟩

theorem witness_ResetLeavesMemoriesAlone : ∃ t, exec .reset stateP = .next t := ⟨_, rfl⟩

theorem witness_ResetGivesIdleOutsideLoading_executed :
    ∃ s u extra, Fetches s u (0x00#8 :: extra) ∧ extra.length ≤ 63 ∧ extra.length = 63 := ⟨_, _, fill 1, fetches_ready _, by decide, by decide⟩

theorem witness_ResetGivesIdleOutsideLoading_consumed : ∃ s u : State, s.nextEvent = (.engine, u) ∧ u.phase = .loadRx ∧ u.mode = .loading ∧
    u.blocksize ≠ 0 ∧ u.rxFrame? = some [0x00#8] := ⟨loading 4 [0x00#8], _, rfl, rfl, rfl, by decide, rfl⟩

theorem witness_ResetGivesIdleOutsideLoading_loading : ∃ s : State, s.Inv ∧ s.mode = .loading :=
  ⟨loading 4 [0x00#8], loading_inv _ _ (by decide) (by decide) (by decide), rfl⟩

theorem witness_PowerUpIsReset : ∃ s u t : State, s.nextEvent = (.powerUp, u) ∧ exec .reset u = .next t ∧ u.rx_queue ≠ [] :=
  ⟨{ withFrame stateP [0xFF#8] with agenda := [.powerUp] }, _, _, rfl, rfl, by decide⟩

theorem witness_DecodeOfEncode : (Instr.append (fill 1)).wf = true ∧ (Instr.load 3 0 255 7).wf = true := by decide

theorem witness_DecodedFrameStarts : decode [0xA4#8, 0x05#8, 0x99#8] = .instr (.clkdiv1 5) ∧
    decode (0x0F#8 :: fill 1) = .instr (.append (fill 1)) := by decide

theorem witness_ExcessBytes : (Instr.winper1 5).op ≠ .append := by decide

theorem witness_ReservedOpcodes : ∃ s u b args, Fetches s u (b :: args) ∧
    b ∉ [0x00#8, 0x01#8, 0x0F#8, 0xA0#8, 0xA1#8, 0xA2#8, 0xA3#8, 0xA4#8, 0xB4#8, 0xC0#8, 0xC1#8, 0xD0#8, 0xD1#8, 0xFF#8] ∧
    args.length ≤ 63 := ⟨_, _, 0xB0, fill 1, fetches_ready _, by decide, by decide⟩

theorem witness_EmptyFrame : ∃ s u, Fetches s u [] := ⟨_, _, fetches_ready _⟩

theorem witness_ShortFrames : ∃ (s u : State) (o : Op) (args : List Byte), Fetches s u (o.code :: args) ∧ args.length + 1 < o.format.minCnt :=
  ⟨_, _, .load, [1, 1, 1], fetches_ready _, by decide⟩

theorem witness_Overlong_sent : ∃ (s u : State), s.nextEvent = (.hostSend (List.replicate 65 0), u) :=
  ⟨{ ready with agenda := [.hostSend (List.replicate 65 0)] }, _, rfl⟩

/-- The longest frame that is enqueued: 64 bytes. -/
theorem witness_Overlong_accepted : ∃ (s u : State) (f : List Byte), s.nextEvent = (.hostSend f, u) ∧ f.length = 64 :=
  ⟨{ ready with agenda := [.hostSend (fill 0)] }, _, _, rfl, by decide⟩

theorem witness_Overlong_fetched : ∃ (s u : State) (f : List Byte), Fetches s u f ∧ 64 < f.length :=
  ⟨_, _, List.replicate 65 0, fetches_ready _, by decide⟩

theorem witness_Overlong_batch : ∃ (s u : State) (f : List Byte), s.nextEvent = (.engine, u) ∧ u.rxFrame? = some f ∧ 64 < f.length ∧
    u.phase = .loadRx := ⟨loading 1 (List.replicate 65 0), _, _, rfl, rfl, by decide, rfl⟩

theorem witness_Winper1 : ∃ s u hi lo extra, Fetches s u (0xA0#8 :: hi :: lo :: extra) ∧ extra.length ≤ 61 :=
  ⟨_, _, 0xFF, 0xFF, fill 3, fetches_ready _, by decide⟩

theorem witness_Winper1_short : ∃ s u args, Fetches s u (0xA0#8 :: args) ∧ args.length < 2 := ⟨_, _, [0x12], fetches_ready _, by decide⟩

theorem witness_Alwidth : (∃ s u v extra, Fetches s u (0xC1#8 :: v :: extra) ∧ extra.length ≤ 62) ∧ ∃ s u, Fetches s u [0xC1#8] :=
  ⟨⟨_, _, 8, fill 2, fetches_ready _, by decide⟩, _, _, fetches_ready _⟩

/-- Each timing frame at its longest: 64 bytes. -/
theorem witness_TimingFrames : ∃ x y : Byte, (fill 3).length ≤ 61 ∧ (fill 2).length ≤ 62 ∧ (fill 1).length ≤ 63 ∧
    (∃ s u, Fetches s u (0xA1#8 :: x :: y :: fill 3)) ∧ (∃ s u, Fetches s u (0xA2#8 :: fill 1)) ∧ (∃ s u, Fetches s u (0xA3#8 :: fill 1)) ∧
    (∃ s u, Fetches s u (0xA4#8 :: x :: fill 2)) ∧ (∃ s u, Fetches s u (0xB4#8 :: x :: fill 2)) ∧
    (∃ s u, Fetches s u (0xC0#8 :: x :: y :: fill 3)) ∧ (∃ s u, Fetches s u (0xC1#8 :: x :: fill 2)) :=
  ⟨0, 0xFF, by decide, by decide, by decide, ⟨_, _, fetches_ready _⟩, ⟨_, _, fetches_ready _⟩, ⟨_, _, fetches_ready _⟩,
    ⟨_, _, fetches_ready _⟩, ⟨_, _, fetches_ready _⟩, ⟨_, _, fetches_ready _⟩, ⟨_, _, fetches_ready _⟩⟩

theorem witness_Arm : ∃ s u hi lo extra, Fetches s u (0xD0#8 :: hi :: lo :: extra) ∧ extra.length ≤ 61 :=
  ⟨_, _, 0, 0, fill 3, fetches_ready _, by decide⟩

theorem witness_Resync_modes : ({ stateP with mode := .commandMode } : State).mode = .commandMode ∧ stateP.mode ≠ .commandMode := by decide

theorem witness_Ping : stateP.agenda = [] ∧ stateP.tx_ready = true := by decide

theorem witness_Ping_frame : ∃ s u extra, Fetches s u (0xFF#8 :: extra) ∧ extra.length ≤ 63 := ⟨_, _, fill 1, fetches_ready _, by decide⟩

theorem witness_ResyncFrame : ∃ (s : State) (extra : List Byte), s.agenda = [] ∧ s.phase = .cmd ∧ s.cfg = true ∧ s.tx_ready = true ∧
    s.rxFrame? = some (0xD1#8 :: extra) ∧ extra.length ≤ 63 := ⟨withFrame stateP (0xD1#8 :: fill 1), fill 1, rfl, rfl, rfl, rfl, rfl, by decide⟩

theorem witness_PingTx : ∃ s u : State, s.nextEvent = (.engine, u) ∧ u.phase = .pingTx := ⟨{ ready with phase := .pingTx }, _, rfl, rfl⟩

theorem witness_LoadIsAccepted : ready.mode = .idle ∧ (1#8).toNat ∈ [1, 2] ∧ (2#8).toNat ∈ [1, 2] := by decide

theorem witness_LoadIsDropped : stateP.mode ≠ .idle ∧ ready.mode = .idle ∧
    ¬ ((3#8).toNat ∈ [1, 2] ∧ (1#8).toNat ∈ [1, 2] ∧ (1#8).toNat ∈ [1, 2]) ∧
    ¬ ((1#8).toNat ∈ [1, 2] ∧ (0#8).toNat ∈ [1, 2] ∧ (1#8).toNat ∈ [1, 2]) := by decide

theorem witness_Append : stateP.blocksize ≠ 0 ∧ (fill 1).length % stateP.blocksize.toNat = 0 := by decide

theorem witness_MalformedAppend_empty : ready.blocksize = 0 := by decide

theorem witness_MalformedAppend_ragged : ([1, 2, 3] : List Byte).length % ({ stateP with blocksize := 8 } : State).blocksize.toNat ≠ 0 := by
  decide

/-- The last pair of the largest layout, and of the largest one-byte layout. -/
theorem witness_ChannelWord_pairs : 2 ∈ [1, 2] ∧ 1 ≤ 2 ∧ 2 ≤ 2 ∧ 1 < 2 ∧
    ([1, 2, 3, 4, 5, 6, 7, 8] : List Byte)[((2 - 1) * 2 + 1) * 2]? = some 7 ∧
    ([1, 2, 3, 4, 5, 6, 7, 8] : List Byte)[((2 - 1) * 2 + 1) * 2 + 1]? = some 8 ∧
    ([1, 2, 3, 4] : List Byte)[(2 - 1) * 2 + 1]? = some 4 := by decide

theorem witness_ChannelWord_two : ∃ (s t : State) (b0 b1 : Byte), s.ports = 1 ∧ s.lines = 1 ∧ 0 < s.freeSpace ∧ s.databits = 2 ∧
    s.blocksize = 2 ∧ exec (.append [b0, b1]) s = .next t :=
  ⟨{ stateP with databits := 2, blocksize := 2 }, _, 0x12, 0x34, rfl, rfl, by decide, rfl, rfl, rfl⟩

theorem witness_ChannelWord_one : ∃ (s t : State), s.ports = 1 ∧ s.lines = 1 ∧ 0 < s.freeSpace ∧ s.databits = 1 ∧
    s.blocksize = 1 ∧ exec (.append [0xAB]) s = .next t := ⟨stateP, _, rfl, rfl, by decide, rfl, rfl, rfl⟩

theorem witness_BlockDecode : 1 ∈ [1, 2] ∧ 2 ∈ [1, 2] ∧ frameFits 1 2 1 ⟨0x1100, 0x2200, 0xFFFF, 0xFFFF⟩ := by
  refine ⟨by decide, by decide, fun P L hP hL => ?_⟩
  rcases hP with rfl | rfl <;> rcases hL with rfl | rfl <;> decide

theorem witness_EmptyAndFull : ∃ s t : State, s.freeSpace = 0 ∧ step s = .next t ∧ s.nextEvent.1 ≠ .powerUp ∧ t.raised = [.overrun] :=
  ⟨{ withFrame stateP [0x0F#8, 0x11#8] with write_index := 127 }, _, by decide, rfl, by decide, by decide⟩

theorem witness_Slot : State.reset.cap = 128 := by decide

theorem witness_RingQueue_latch : ∃ s t : State, step s = .next t ∧ s.nextEvent.1 = .latch ∧ ¬ (s.nextEvent.1 = .latch ∧ s.occupied = 0) ∧
    s.occupied ≠ 0 := ⟨{ stateP with agenda := [.latch] }, _, rfl, rfl, by decide, by decide⟩

theorem witness_RingQueue_powerUp : ∃ s t : State, step s = .next t ∧ s.nextEvent.1 = .powerUp :=
  ⟨{ stateP with agenda := [.powerUp] }, _, rfl, rfl⟩

theorem witness_RingQueue_engine : ∃ s t : State, step s = .next t ∧ s.nextEvent.1 = .engine ∧ t.occupied = 5 :=
  ⟨withFrame stateP [0x0F#8, 0x10#8], _, rfl, rfl, by decide⟩

theorem witness_RingQueue_emptied : ∀ o ∈ [Op.reset, Op.resync], ∃ s t : State, step s = .next t ∧ s.nextEvent.1 = .engine ∧ s.phase = .cmd ∧
    s.rxFrame? = some [o.code] ∧ s.occupied = 4 ∧ t.occupied = 0 := by
  intro o ho
  simp only [List.mem_cons, List.not_mem_nil, or_false] at ho
  rcases ho with rfl | rfl
  · exact ⟨withFrame stateP [0x00#8], _, rfl, rfl, rfl, rfl, by decide, by decide⟩
  · exact ⟨withFrame stateP [0xD1#8], _, rfl, rfl, rfl, rfl, by decide, by decide⟩

theorem witness_RingQueue_other : ∃ s t : State, step s = .next t ∧ s.nextEvent.1 ≠ .latch ∧ s.nextEvent.1 ≠ .powerUp ∧ s.nextEvent.1 ≠ .engine :=
  ⟨{ stateP with agenda := [.setCfg false] }, _, rfl, by decide, by decide, by decide⟩

theorem witness_Underrun : ∃ s u t t' : State, s.nextEvent = (.latch, u) ∧ u.occupied = 0 ∧ step s = .next t ∧
    exec (.append [0x11]) t = .next t' := ⟨{ stateP with agenda := [.latch], read_index := 4 }, _, _, _, rfl, by decide, rfl, rfl⟩

theorem witness_LatchEventEffect : ∃ s u : State, s.nextEvent = (.latch, u) := ⟨{ stateP with agenda := [.latch] }, _, rfl⟩

theorem witness_LatchNeverBlocked : ({ stateP with agenda := [.latch, .latch, .engine] } : State).agenda = .latch :: .latch :: [.engine] := rfl

theorem witness_StepRuns : ∃ s u f, Fetches s u f ∧ f.length ≤ 64 ∧ decode f = .instr (.append (fill 1)) :=
  ⟨_, _, 0x0F#8 :: fill 1, fetches_ready _, by decide, by decide⟩

theorem witness_Fetch : (fill 0).length ≤ 64 ∧ (fill 0).length = 64 := by decide

theorem witness_CmdStepWithoutFrame_unlinked : ∃ s u : State, s.nextEvent = (.engine, u) ∧ u.phase = .cmd ∧ u.cfg = false ∧ u.rxValid = true :=
  ⟨{ withFrame ready [0xFF#8] with cfg := false }, _, rfl, rfl, rfl, rfl⟩

theorem witness_CmdStepWithoutFrame_empty : ∃ s u : State, s.nextEvent = (.engine, u) ∧ u.phase = .cmd ∧ u.cfg = true ∧ u.rxValid = false :=
  ⟨ready, _, rfl, rfl, rfl, rfl⟩

theorem witness_FlowControl : ∃ s u : State, s.nextEvent = (.engine, u) ∧ u.phase = .fc ∧ u.cfg = true ∧ u.mode = .playing ∧
    u.fc_outstanding = false ∧ u.freeSpace = 66 :=
  ⟨{ stateP with phase := .fc, fc_outstanding := false, write_index := 0x40, read_index := 3 }, _, rfl, rfl, rfl, rfl, rfl, by decide⟩

theorem witness_SendingPhases : ∀ p ∈ [Phase.fcTx, Phase.ackTx, Phase.loadTx],
    ∃ s u : State, s.nextEvent = (.engine, u) ∧ u.phase = p := fun p _ => ⟨{ ready with phase := p }, _, rfl, rfl⟩

theorem witness_AcknowledgeDecision : ∃ s u : State, s.nextEvent = (.engine, u) ∧ u.phase = .ack ∧ u.ack_pending = true :=
  ⟨{ stateP with phase := .ack, ack_pending := true }, _, rfl, rfl, rfl⟩

theorem witness_LoadBatchStep : ∀ trips : BitVec 6, ∃ s u v w f, State.nextEvent s = (.engine, u) ∧ u.phase = .loadRx ∧ u.rxFrame? = some f ∧
    f.length ≤ 64 ∧ v = u.fetch f ∧ exec (.append f.tail) v = .next w ∧ u.load_trips = trips :=
  fun trips => ⟨loading trips [0x00#8, 0x12#8], _, _, _, _, rfl, rfl, rfl, by decide, rfl, rfl, rfl⟩

theorem witness_BlockedEngine_sending : ∀ p ∈ [Phase.fcTx, Phase.ackTx, Phase.pingTx, Phase.loadTx],
    ∃ s u : State, s.nextEvent = (.engine, u) ∧ u.tx_ready = false ∧ u.phase = p :=
  fun p _ => ⟨{ ready with phase := p, tx_ready := false }, _, rfl, rfl, rfl⟩

theorem witness_BlockedEngine_receiving : ∃ s u : State, s.nextEvent = (.engine, u) ∧ u.rxValid = false ∧ u.phase = .loadRx :=
  ⟨{ loading 1 [] with rx_queue := [] }, _, rfl, rfl, rfl⟩

theorem witness_Disconnected : ∀ p ∈ [Phase.fc, Phase.ack, Phase.cmd],
    ∃ s u : State, s.nextEvent = (.engine, u) ∧ u.cfg = false ∧ u.phase = p := fun p _ => ⟨{ stateP with phase := p, cfg := false }, _, rfl, rfl, rfl⟩

theorem witness_Disconnected_checks : ∃ s u : State, s.nextEvent = (.engine, u) ∧ u.cfg = false ∧ u.phase = .cmd ∧ u.cfg_changed = true ∧
    u.rxValid = true := ⟨{ withFrame stateP [0xFF#8] with cfg := false, cfg_changed := true }, _, rfl, rfl, rfl, rfl, rfl⟩

theorem witness_Reconnected : ∃ s u : State, s.nextEvent = (.setCfg true, u) ∧ u.cfg = false :=
  ⟨{ stateP with agenda := [.setCfg true], cfg := false }, _, rfl, rfl⟩

theorem witness_Disconnected_latch : ∃ s u : State, s.nextEvent = (.latch, u) ∧ u.cfg = false :=
  ⟨{ stateP with agenda := [.latch], cfg := false }, _, rfl, rfl⟩

theorem witness_Quiescent : (∃ s : State, s.quiescent ∧ s.phase = .fc) ∧ (∃ s : State, s.quiescent ∧ s.phase = .ack) ∧
    ∃ s : State, s.quiescent ∧ s.phase = .cmd := by
  refine ⟨⟨{ stateP with phase := .fc }, ?_, rfl⟩, ⟨{ stateP with phase := .ack }, ?_, rfl⟩, ⟨stateP, ?_, rfl⟩⟩ <;>
    (unfold State.quiescent; decide)

theorem witness_OneIteration : ∃ (s : State) (extra : List Byte), s.agenda = [] ∧ s.phase = .fc ∧ s.requestDue = true ∧ s.ack_pending = true ∧
    s.tx_ready = true ∧ s.rxFrame? = some (0xFF#8 :: extra) ∧ extra.length ≤ 63 :=
  ⟨{ withFrame stateP (0xFF#8 :: fill 1) with phase := .fc, fc_outstanding := false, ack_pending := true }, fill 1,
    rfl, rfl, by decide, rfl, rfl, rfl, by decide⟩

theorem witness_SentBytes : ∃ s t : State, step s = .next t ∧ s.phase = .ackTx ∧ t.tx_sent = s.tx_sent ++ [0x0D#8] :=
  ⟨{ stateP with phase := .ackTx, ack_pending := true }, _, rfl, rfl, rfl⟩

theorem witness_ModeTransitions_idle : ∃ s t : State, s.Inv ∧ step s = .next t ∧ t.mode ≠ s.mode ∧ t.mode = .idle :=
  ⟨withFrame stateP [0x00#8], _, stateP_inv _ (by decide), rfl, by decide, rfl⟩

theorem witness_ModeTransitions_loading : ∃ s t : State, s.Inv ∧ step s = .next t ∧ t.mode ≠ s.mode ∧ t.mode = .loading :=
  ⟨withFrame ready [0x01#8, 1, 1, 1, 0], _,
    ⟨rfl, rfl, by decide, fun i h => absurd h (Nat.not_lt_zero i), fun g hg => by rw [List.mem_singleton.mp hg]; decide,
      .inl ⟨rfl, rfl, rfl, rfl, rfl⟩, by decide, by decide, by decide, by decide, ⟨rfl, rfl⟩, rfl⟩, rfl, by decide, rfl⟩

theorem witness_ModeTransitions_playing : ∃ s t : State, s.Inv ∧ step s = .next t ∧ t.mode ≠ s.mode ∧ t.mode = .playing :=
  ⟨loading 1 [0x0F#8, 0x12#8], _, loading_inv _ _ (by decide) (by decide) (by decide), rfl, by decide, rfl⟩

theorem witness_ModeTransitions_command : ∃ s t : State, s.Inv ∧ step s = .next t ∧ t.mode ≠ s.mode ∧ t.mode = .commandMode :=
  ⟨{ withFrame stateP [] with agenda := [.latch], cmd_armed := true, cmd_mode_start := 1 }, _,
    ⟨rfl, rfl, by decide, fun i h => absurd h (Nat.not_lt_zero i), fun g hg => by rw [List.mem_singleton.mp hg]; decide,
      .inr ⟨by decide, one_byte_layout⟩, by decide, by decide, by decide, by decide, ⟨rfl, rfl⟩, rfl⟩, rfl, by decide, rfl⟩

theorem witness_IdleIsLeft : ready.Inv ∧ ready.mode = .idle ∧ Instr.ping.op ≠ .load ∧
    ∃ s t : State, s.Inv ∧ step s = .next t ∧ s.mode = .idle ∧ t.mode ≠ .idle :=
  ⟨ready_inv, rfl, by decide, withFrame ready [0x01#8, 1, 1, 1, 0], _,
    ⟨rfl, rfl, by decide, fun i h => absurd h (Nat.not_lt_zero i), fun g hg => by rw [List.mem_singleton.mp hg]; decide,
      .inl ⟨rfl, rfl, rfl, rfl, rfl⟩, by decide, by decide, by decide, by decide, ⟨rfl, rfl⟩, rfl⟩, rfl, rfl, by decide⟩

/-- The three conditions, each from a frame that raises it. -/
theorem witness_DroppedFrame : ∀ p ∈ [([0x02#8], Condition.unknownOpcode), ([0xA0#8, 0x12#8], Condition.malformedPayload),
      ([0x01#8, 1, 1, 1, 0], Condition.loadNotIdle)],
    ∃ s u t : State, s.nextEvent = (.engine, u) ∧ u.phase = .cmd ∧ u.cfg = true ∧ u.cfg_changed = false ∧ u.rxFrame? = some p.1 ∧
      step s = .next t ∧ t.raised = u.raised ++ [p.2] := by
  intro p hp
  simp only [List.mem_cons, List.not_mem_nil, or_false] at hp
  rcases hp with rfl | rfl | rfl
  · exact ⟨withFrame stateP [0x02#8], _, _, rfl, rfl, rfl, rfl, rfl, rfl, rfl⟩
  · exact ⟨withFrame stateP [0xA0#8, 0x12#8], _, _, rfl, rfl, rfl, rfl, rfl, rfl, rfl⟩
  · exact ⟨withFrame stateP [0x01#8, 1, 1, 1, 0], _, _, rfl, rfl, rfl, rfl, rfl, rfl, rfl⟩

theorem witness_LoadBlocksTheLoop : ∀ trips ∈ [1#6, 2#6], ∃ s u t : State, s.Inv ∧ s.nextEvent = (.engine, u) ∧ u.mode = .loading ∧
    step s = .next t ∧ u.load_trips = trips := by
  intro trips h
  refine ⟨loading trips [0x00#8], _, _, loading_inv _ _ (by decide) ?_ ?_, rfl, rfl, rfl, rfl⟩ <;>
    (simp only [List.mem_cons, List.not_mem_nil, or_false] at h; rcases h with rfl | rfl <;> decide)

theorem witness_Writers : ∃ s t : State, step s = .next t ∧ s.nextEvent.1 = .engine ∧ t.read_index = s.write_index ∧ t.read_index ≠ s.read_index :=
  ⟨withFrame stateP [0xD1#8], _, rfl, rfl, rfl, by decide⟩

theorem witness_Writers_reset : ∃ s t : State, step s = .next t ∧ s.nextEvent.1 = .engine ∧ t.read_index = 0 ∧ t.read_index ≠ s.read_index :=
  ⟨{ withFrame stateP [0x00#8] with read_index := 3 }, _, rfl, rfl, rfl, by decide⟩

theorem witness_Writers_latch : ∃ s t : State, step s = .next t ∧ s.nextEvent.1 = .latch ∧ t.read_index ≠ s.read_index ∧ t.mode ≠ s.mode :=
  ⟨{ stateP with agenda := [.latch], cmd_armed := true, cmd_mode_start := 1 }, _, rfl, rfl, by decide, by decide⟩

theorem witness_Writers_transport : ∃ s t : State, step s = .next t ∧ s.nextEvent.1 ≠ .latch ∧ s.nextEvent.1 ≠ .engine ∧
    s.nextEvent.1 ≠ .powerUp ∧ t.rx_queue ≠ s.rx_queue := ⟨{ stateP with agenda := [.hostSend (fill 0)] }, _, rfl, by decide, by decide, by decide, by decide⟩

/-- A frame on offer over a configured link, when the Transport would withdraw it, or lose it. -/
theorem witness_Writers_offer : ∀ e ∈ [Event.setRxHold true, Event.dropFrames], ∃ s t : State, step s = .next t ∧ s.nextEvent.1 = e ∧
    s.cfg = true ∧ s.rxFrame? = some [0xFF#8] ∧ s.nextEvent.1 ≠ .engine ∧ s.nextEvent.1 ≠ .powerUp := by
  intro e he
  refine ⟨{ withFrame stateP [0xFF#8] with agenda := [e] }, ?_⟩
  simp only [List.mem_cons, List.not_mem_nil, or_false] at he
  rcases he with rfl | rfl <;> exact ⟨_, rfl, rfl, rfl, rfl, nofun, nofun⟩

theorem witness_OneRequest : ∃ s t : State, s.Inv ∧ step s = .next t ∧ s.fc_outstanding = true ∧ s.mode ≠ .loading ∧ t.fc_outstanding = false :=
  ⟨withFrame stateP [0x0F#8], _, stateP_inv _ (by decide), rfl, rfl, by decide, by decide⟩

theorem witness_StaleBuffer : ∃ s t : State, step s = .next t ∧ s.nextEvent.1 = .engine ∧ t.rx_queue.length < s.rx_queue.length :=
  ⟨withFrame stateP [0x0F#8, 0x10#8], _, rfl, rfl, by decide⟩

theorem witness_LoadRuns : ∃ (s : State) (p d l : Byte) (batches : List (List Byte)), s.agenda = [] ∧ s.phase = .cmd ∧ s.mode = .idle ∧
    s.cfg = true ∧ s.tx_ready = true ∧ s.rx_hold = false ∧ p.toNat ∈ [1, 2] ∧ d.toNat ∈ [1, 2] ∧ l.toNat ∈ [1, 2] ∧
    s.rx_queue = (0x01#8 :: p :: d :: l :: 0 :: fill 5) :: (batches ++ [[0xFF#8]]) ∧ (fill 5).length ≤ 59 ∧
    batches.length = 4 * (p.toNat * d.toNat * l.toNat) ∧ ∀ f ∈ batches, f.length ≤ 64 :=
  ⟨{ ready with rx_queue := (0x01#8 :: 2 :: 1 :: 1 :: 0 :: fill 5) :: (List.replicate 8 (fill 0) ++ [[0xFF#8]]) }, 2, 1, 1,
    List.replicate 8 (fill 0), rfl, rfl, rfl, rfl, rfl, rfl, by decide, by decide, by decide, rfl, by decide, by decide, by decide⟩

end Sys2Proof.Tests
end

section
/-! O31: the bytes of a channel word, in a block (20_memory.md R64) and in the ring after an APPEND of one block. -/

namespace Sys2Proof.Machine

/-! ### The word at an offset of a block -/

theorem channelWord_two_toNat {block : List Byte} {off : Nat} {b0 b1 : Byte} (h0 : block[off]? = some b0)
    (h1 : block[off + 1]? = some b1) : (channelWord 2 block off).toNat = b0.toNat * 256 + b1.toNat := by
  simp [channelWord, h0, h1]

theorem channelWord_one_toNat {block : List Byte} {off : Nat} {b0 : Byte} (h0 : block[off]? = some b0) :
    (channelWord 1 block off).toNat = b0.toNat * 256 := by
  simp [channelWord, h0]

/-- A pair that the layout holds has the word at its place in row-major order (30_encoding.md R98). -/
theorem channelAt_decodeBlock_held {p l d P L : Nat} (block : List Byte) (hp : p ≤ 2) (hl : l ≤ 2) (h1 : 1 ≤ P) (hP : P ≤ p)
    (hL : L < l) : channelAt (decodeBlock p l d block) P L = channelWord d block (((P - 1) * l + L) * d) := by
  rw [channelAt_decodeBlock p l d block (by omega) (by omega), channelOf, if_pos ⟨hP, hL⟩]

/-- With one port and one line the block is the one word, and it is `ch[0]`. -/
theorem decodeBlock_one_one_ch0 (d : Nat) (block : List Byte) : (decodeBlock 1 1 d block).ch0 = channelWord d block 0 := by
  simpa using channelAt_decodeBlock_held (d := d) block one_le_two one_le_two le_rfl le_rfl Nat.one_pos

/-! ### A batch of one block -/

/-- A payload that is one block is a batch of one Frame. -/
theorem State.batchFrames_block {s : State} {block : List Byte} (hb : s.blocksize ≠ 0) (hlen : block.length = s.blocksize.toNat) :
    s.batchFrames block = [decodeBlock s.ports.toNat s.lines.toNat s.databits.toNat block] := by
  have hone : block.length / s.blocksize.toNat = 1 := by
    rw [hlen, Nat.div_self (Nat.pos_of_ne_zero (blocksize_toNat_ne hb))]
  rw [State.batchFrames, hone]
  simp [← hlen]

/-- A batch of Frames that has room for one stores its first Frame in the slot of `write_index` (40_ring_buffer.md R122). -/
theorem State.pushBatch_ringRead_first (f : Frame) (fs : List Frame) {s : State} (hfree : 0 < s.freeSpace) :
    (s.pushBatch (f :: fs)).ringRead (s.slot s.write_index) = f := by
  have hsum := s.freeSpace_add_occupied
  have hlen := State.stored_length (f :: fs) s
  have hpos : 0 < ((f :: fs).take s.freeSpace).length := by rw [hlen, List.length_cons]; omega
  have hread := State.pushAll_ringRead_in ((f :: fs).take s.freeSpace) s (by omega) hpos
  rw [BitVec.add_zero, List.getElem_take, List.getElem_cons_zero] at hread
  rw [State.pushBatch_ringRead, hread]

/-- APPEND of one block over a loaded layout, into a ring with room, leaves the decoded block in the slot of `write_index`. -/
theorem exec_append_block_ringRead {s t : State} {block : List Byte} (hb : s.blocksize ≠ 0) (hlen : block.length = s.blocksize.toNat)
    (hfree : 0 < s.freeSpace) (h : exec (.append block) s = .next t) :
    t.ringRead (s.slot s.write_index) = decodeBlock s.ports.toNat s.lines.toNat s.databits.toNat block := by
  have hdec : s.decodeBatch block = some [decodeBlock s.ports.toNat s.lines.toNat s.databits.toNat block] := by
    rw [State.decodeBatch_some hb (by rw [hlen, Nat.mod_self]), State.batchFrames_block hb hlen]
  rw [exec, execAppend, State.acceptBatch, hdec] at h
  cases h
  exact State.pushBatch_ringRead_first _ [] hfree

/-- The same with one port and one line: the slot's `ch[0]` is the word of the block. -/
theorem exec_append_word_ch0 {s t : State} {block : List Byte} (hp : s.ports = 1) (hl : s.lines = 1) (hb : s.blocksize ≠ 0)
    (hlen : block.length = s.blocksize.toNat) (hfree : 0 < s.freeSpace) (h : exec (.append block) s = .next t) :
    (t.ringRead (s.slot s.write_index)).ch0 = channelWord s.databits.toNat block 0 := by
  rw [exec_append_block_ringRead hb hlen hfree h, hp, hl]
  exact decodeBlock_one_one_ch0 _ block

/-! ### The obligation -/

/-- Settles O31: a pair's word is the channel word at the pair's offset, and a block appended to the ring is read back decoded. -/
theorem channelWordBytePlacement : Obligations.ChannelWordBytePlacement := by
  refine ⟨fun p l P L block b0 b1 hp hl h1 hP hL => ?_, fun s t b0 b1 hports hlines hfree => ⟨fun hd hb h => ?_, fun hd hb h => ?_⟩⟩
  · have hp2 : p ≤ 2 := by simp at hp; omega
    have hl2 : l ≤ 2 := by simp at hl; omega
    constructor
    · intro hb0 hb1
      rw [channelAt_decodeBlock_held block hp2 hl2 h1 hP hL, channelWord_two_toNat hb0 hb1]
    · intro hb0
      rw [channelAt_decodeBlock_held block hp2 hl2 h1 hP hL, Nat.mul_one, channelWord_one_toNat hb0]
  · rw [exec_append_word_ch0 hports hlines (by simp [hb]) (by simp [hb]) hfree h, hd]
    exact channelWord_two_toNat rfl rfl
  · have hword : ((t.ringRead (s.slot s.write_index)).ch0).toNat = b0.toNat * 256 := by
      rw [exec_append_word_ch0 hports hlines (by simp [hb]) (by simp [hb]) hfree h, hd]
      exact channelWord_one_toNat rfl
    refine ⟨hword, fun hab => BitVec.eq_of_toNat_eq ?_⟩
    rw [hword, hab]
    rfl

end Sys2Proof.Machine
end

section
/-! O12: a frame with a reserved opcode is fetched and dropped (30_encoding.md R96, 60_exceptions.md R241). -/

namespace Sys2Proof

theorem decode_unknownOpcode_of_notMem {b : Byte} (args : List Byte) (h : b ∉ Op.all.map Op.code) :
    decode (b :: args) = .unknownOpcode := by
  have hb : Op.ofByte b = none := Op.ofByte_none.mpr fun o ho => h (ho ▸ List.mem_map_of_mem (Op.mem_all o))
  rw [decode, hb]

end Sys2Proof

namespace Sys2Proof.Machine

@[simp] theorem State.checkConfig_rx_queue (s : State) : s.checkConfig.rx_queue = s.rx_queue := by rw [State.checkConfig_eq]

@[simp] theorem State.checkConfig_tx_sent (s : State) : s.checkConfig.tx_sent = s.tx_sent := by rw [State.checkConfig_eq]

@[simp] theorem State.checkConfig_raised (s : State) : s.checkConfig.raised = s.raised := by rw [State.checkConfig_eq]

theorem engineStep_of_phase_cmd {u : State} (hp : u.phase = .cmd) : engineStep u = stepCmd u := by rw [engineStep, hp]

/-- The Engine's turn in `CMD` with a frame that carries no opcode. -/
theorem engineStep_cmd_unknownOpcode {u : State} {f : List Byte} (hp : u.phase = .cmd) (hc : u.cfg = true)
    (hf : u.rxFrame? = some f) (hl : f.length ≤ 64) (hd : decode f = .unknownOpcode) :
    engineStep u = .next ((u.checkConfig.fetch f).dropFrame .unknownOpcode) := by
  rw [engineStep_of_phase_cmd hp, stepCmd_frame hc hf hl, dispatch_fetch _ hl, hd]

/-- Settles O12: the opcode test knows exactly the 14 listed bytes, so the frame is fetched and dropped. -/
theorem reservedOpcodesAreIgnored : Obligations.ReservedOpcodesAreIgnored := by
  intro s u b args hturn hp hc hb hf hargs
  have hl : (b :: args).length ≤ 64 := Nat.succ_le_succ hargs
  have hd : decode (b :: args) = .unknownOpcode := decode_unknownOpcode_of_notMem args hb
  refine ⟨_, rfl, ?_, State.fetch_frame _ hl, ?_, ?_⟩
  · rw [step_engine hturn, engineStep_cmd_unknownOpcode hp hc hf hl hd, ← State.checkConfig_raised]
    rfl
  · rw [State.fetch_rx_queue, State.checkConfig_rx_queue]
  · rw [State.fetch_tx_sent, State.checkConfig_tx_sent]

end Sys2Proof.Machine
end

section
/-! O52: each phase sends at most one byte, its own (30_encoding.md R108). -/

namespace Sys2Proof.Machine

/-- The byte that a sending phase puts on the line (30_encoding.md R108); the other phases send none. -/
def Phase.sentByte? : Phase → Option Byte
  | .fcTx | .loadTx => some Config.REQ
  | .ackTx => some Config.ACK
  | .pingTx => some Config.PONG
  | .fc | .ack | .cmd | .loadRx => none

/-! ### The sending phases -/

theorem State.stepFcTx_tx_sent (s : State) : s.stepFcTx.tx_sent = s.tx_sent ++ if s.tx_ready then [Config.REQ] else [] := by
  rw [State.stepFcTx]
  split <;> simp

theorem State.stepLoadTx_tx_sent (s : State) : s.stepLoadTx.tx_sent = s.tx_sent ++ if s.tx_ready then [Config.REQ] else [] := by
  rw [State.stepLoadTx]
  split <;> simp

theorem State.stepAckTx_tx_sent (s : State) : s.stepAckTx.tx_sent = s.tx_sent ++ if s.tx_ready then [Config.ACK] else [] := by
  rw [State.stepAckTx]
  split <;> simp

theorem State.stepPingTx_tx_sent (s : State) : s.stepPingTx.tx_sent = s.tx_sent ++ if s.tx_ready then [Config.PONG] else [] := by
  rw [State.stepPingTx]
  split <;> simp

/-! ### What sends nothing -/

theorem exec_tx_sent {i : Instr} {s t : State} (h : exec i s = .next t) : t.tx_sent = s.tx_sent := by
  obtain ⟨-, -, -, -, -, -, -, -, hsent, -⟩ := exec_leaves h
  exact hsent

@[simp] theorem State.acceptBatch_tx_sent (payload : List Byte) (s : State) : (s.acceptBatch payload).tx_sent = s.tx_sent := by
  rw [State.acceptBatch_frame]

@[simp] theorem State.loadBatch_tx_sent (s : State) : s.loadBatch.tx_sent = s.tx_sent := by
  rw [State.loadBatch_eq]
  split <;> exact State.acceptBatch_tx_sent _ s

@[simp] theorem State.latch_tx_sent (s : State) : s.latch.tx_sent = s.tx_sent := by rw [State.latch_eq]

/-! ### Every step -/

/-- An Engine step sends its phase's byte if the Transport is ready, and nothing else. -/
theorem engineStep_tx_sent {u t : State} (h : engineStep u = .next t) :
    t.tx_sent = u.tx_sent ++ if u.tx_ready then u.phase.sentByte?.toList else [] := by
  rcases engineStep_cases h with ⟨hp, rfl⟩ | ⟨hp, rfl⟩ | ⟨hp, rfl⟩ | ⟨hp, rfl⟩ | ⟨hp, rfl⟩ | ⟨hp, rfl⟩ | ⟨hp, -, rfl⟩ |
    ⟨hp, -, f, -, -, hd⟩ | ⟨hp, -, rfl⟩ | ⟨hp, f, -, -, rfl⟩ <;> rw [hp]
  · simp [Phase.sentByte?, State.stepFc]
  · exact State.stepFcTx_tx_sent u
  · simp [Phase.sentByte?, State.stepAck]
  · exact State.stepAckTx_tx_sent u
  · exact State.stepPingTx_tx_sent u
  · exact State.stepLoadTx_tx_sent u
  · simp [Phase.sentByte?]
  · have hsent : t.tx_sent = u.tx_sent := by
      rcases hd with ⟨i, -, hex⟩ | ⟨-, rfl⟩ | ⟨-, rfl⟩
      · simpa using exec_tx_sent hex
      · simp
      · simp
    simp [Phase.sentByte?, hsent]
  · simp [Phase.sentByte?]
  · simp [Phase.sentByte?]

/-- Only the Engine sends. -/
theorem runEvent_tx_sent {e : Event} {u t : State} (h : runEvent e u = .next t) (he : e ≠ .engine) : t.tx_sent = u.tx_sent := by
  by_cases hlatch : e = .latch
  · subst hlatch
    cases h
    exact State.latch_tx_sent u
  by_cases hpower : e = .powerUp
  · subst hpower
    cases h
    rfl
  · rw [runEvent_input h he hlatch hpower]

/-- What a step sends: an Engine step its phase's byte, if the Transport is ready. -/
theorem step_tx_sent {s t : State} (h : step s = .next t) :
    t.tx_sent = s.tx_sent ++ if s.nextEvent.1 = .engine ∧ s.tx_ready = true then s.phase.sentByte?.toList else [] := by
  rw [step, State.nextEvent_state] at h
  by_cases he : s.nextEvent.1 = .engine
  · rw [he] at h
    simpa [he] using engineStep_tx_sent h
  · simpa [he] using runEvent_tx_sent h he

/-- Settles O52: `step_tx_sent`, read off phase by phase. -/
theorem sentBytesComeFromTheirPhases : Obligations.SentBytesComeFromTheirPhases := by
  intro s t h
  have hsent := step_tx_sent h
  by_cases hturn : s.nextEvent.1 = .engine ∧ s.tx_ready = true
  · obtain ⟨he, hr⟩ := hturn
    rw [if_pos ⟨he, hr⟩] at hsent
    cases hp : s.phase <;> simpa [hp, he, hr, Phase.sentByte?] using hsent
  · rw [if_neg hturn, List.append_nil] at hsent
    exact .inl ⟨hsent, fun ⟨he, hr, _⟩ => hturn ⟨he, hr⟩⟩

end Sys2Proof.Machine
end

section
/-! O34: the slots of consecutive indices (40_ring_buffer.md R121). -/

namespace Sys2Proof.Machine

@[simp] theorem State.slot_zero (s : State) : s.slot 0 = 0 := Nat.zero_mod _

/-- The successor of an index has the next slot, or slot 0 after the last one; the 16-bit wrap of `i + 1` is no exception, as `CAP` divides `2^IDXW`. -/
theorem State.slot_add_one (s : State) (i : Index) :
    s.slot (i + 1) = if s.slot i = s.cap - 1 then 0 else s.slot i + 1 := by
  have hlt := s.slot_lt i
  have hstep : s.slot (i + 1) = (s.slot i + 1) % s.cap := by
    rw [State.slot_def s i, Nat.mod_add_mod]
    exact s.slot_add i 1
  rw [hstep]
  split
  · next hlast =>
    rw [hlast, Nat.sub_add_cancel s.cap_pos, Nat.mod_self]
  · next hnotLast =>
    exact Nat.mod_eq_of_lt (by omega)

/-- The last index has the last slot: its successor is index 0, in slot 0. -/
theorem State.slot_last (s : State) : s.slot 0xFFFF = s.cap - 1 := by
  have hwrap : s.slot 0 = if s.slot 0xFFFF = s.cap - 1 then 0 else s.slot 0xFFFF + 1 := s.slot_add_one 0xFFFF
  by_contra hnotLast
  rw [if_neg hnotLast, State.slot_zero] at hwrap
  omega

/-- Settles O34: the successor's slot is `State.slot_add_one`, and the wrap is its instance at the last index. -/
theorem slotIsIndexModCap : Obligations.SlotIsIndexModCap := by
  intro s i
  have hmask : s.slot i = i.toNat &&& (s.cap - 1) := (s.and_cap i.toNat).symm
  have hexample : s.cap = 128 → s.slot 0x0085 = 5 := fun hcap => by
    rw [State.slot_def, hcap]
    rfl
  exact ⟨s.slot_def i, hmask, s.slot_lt i, s.slot_add_one i, s.slot_last, s.slot_zero, hexample⟩

end Sys2Proof.Machine
end

section
/-! O6: a Reset frame gives Idle where it is executed, and is an empty batch where it is eaten (41_mode_state_machine.md R148). -/

namespace Sys2Proof.Machine

/-- The Engine's turn in `CMD` with a Reset frame, whatever bytes follow the opcode. -/
theorem engineStep_cmd_reset {u : State} {extra : List Byte} (hp : u.phase = .cmd) (hc : u.cfg = true)
    (hf : u.rxFrame? = some (0x00#8 :: extra)) (hl : extra.length ≤ 63) :
    engineStep u = .next (u.checkConfig.fetch (0x00#8 :: extra)).resetCore :=
  engineStep_cmd (o := .reset) hp hc hf (Nat.succ_le_succ hl) rfl

/-- The Engine's turn in `LOAD_RX` with a frame. -/
theorem engineStep_loadRx {u : State} {f : List Byte} (hp : u.phase = .loadRx) (hf : u.rxFrame? = some f) (hl : f.length ≤ 64) :
    engineStep u = .next (u.fetch f).loadBatch := by
  rw [engineStep, hp]
  exact stepLoadRx_frame hf hl

/-! ### Batches -/

@[simp] theorem State.pushBatch_nil (s : State) : s.pushBatch [] = s := by
  rw [State.pushBatch_eq, List.take_nil, State.pushAll_nil, List.length_nil, if_neg (Nat.not_lt_zero _)]

/-- Over a loaded layout, a batch of no bytes is a batch of no Frames (43_cmd_data.md R194). -/
theorem State.acceptBatch_nil {s : State} (hb : s.blocksize ≠ 0) : s.acceptBatch [] = { s with fc_outstanding := false } := by
  have hdec : s.decodeBatch [] = some [] := by
    rw [State.decodeBatch_some hb (Nat.zero_mod _), State.batchFrames, List.length_nil, Nat.zero_div]
    rfl
  rw [State.acceptBatch, hdec]
  simp only [State.pushBatch_nil]

@[simp] theorem State.acceptBatch_mode (payload : List Byte) (s : State) : (s.acceptBatch payload).mode = s.mode := by
  rw [State.acceptBatch_frame]

/-! ### The batch half of a Load round trip -/

theorem State.loadBatch_mode (s : State) : s.loadBatch.mode = if s.load_trips = 1 then .playing else s.mode := by
  rw [State.loadBatch_eq]
  split
  · rfl
  · exact State.acceptBatch_mode _ s

@[simp] theorem State.loadBatch_load_trips (s : State) : s.loadBatch.load_trips = s.load_trips - 1 := by
  rw [State.loadBatch_eq]
  split
  · next hlast =>
    rw [hlast]
    rfl
  · rfl

@[simp] theorem State.loadBatch_write_index (s : State) : s.loadBatch.write_index = (s.acceptBatch s.payload).write_index := by
  rw [State.loadBatch_eq]
  split <;> rfl

@[simp] theorem State.loadBatch_ringRead (s : State) (a : Nat) : s.loadBatch.ringRead a = (s.acceptBatch s.payload).ringRead a := by
  rw [State.loadBatch_eq]
  split <;> rfl

/-- A frame of one byte, during a Load, is a batch of no Frames: byte 0 is not examined (43_cmd_data.md R197). -/
theorem State.acceptBatch_fetch_singleton {u : State} (b : Byte) (hb : u.blocksize ≠ 0) :
    (u.fetch [b]).acceptBatch (u.fetch [b]).payload = { u.fetch [b] with fc_outstanding := false } := by
  rw [State.fetch_payload u (f := [b]) (by simp)]
  exact State.acceptBatch_nil hb

/-- Settles O6: in `CMD` the Reset frame is executed; in `LOAD_RX` it is a batch of no Frames, after which the Load goes on or is complete;
and a Load never stands in `CMD`. -/
theorem resetGivesIdleOutsideLoading : Obligations.ResetGivesIdleOutsideLoading := by
  refine ⟨fun s u extra hturn hp hc hf hl => ?_, fun s u hturn hp hm hb hf => ?_, fun s hinv hm => ?_⟩
  · exact ⟨_, (step_engine hturn).trans (engineStep_cmd_reset hp hc hf hl), rfl⟩
  · have hbatch := State.acceptBatch_fetch_singleton 0x00#8 hb
    refine ⟨_, (step_engine hturn).trans (engineStep_loadRx hp hf (by decide)), ?_, ?_, fun a => ?_, State.loadBatch_load_trips _⟩
    · rw [State.loadBatch_mode]
      split
      · exact .inr rfl
      · exact .inl hm
    · rw [State.loadBatch_write_index, hbatch]
      rfl
    · rw [State.loadBatch_ringRead, hbatch]
      rfl
  · intro hp
    simpa [hp] using hinv.loading_iff.mp hm

end Sys2Proof.Machine
end

section
/-! O54: which steps change `mode`, and that in `Idle` an accepted Load is the only one that does (41_mode_state_machine.md R141, R142). -/

namespace Sys2Proof.Machine

/-! ### What changes `mode` -/

@[simp] theorem State.checkConfig_mode (s : State) : s.checkConfig.mode = s.mode := by rw [State.checkConfig_eq]

/-- A command keeps `mode`, or is RESET, an accepted LOAD, or RESYNC out of `CommandMode`. -/
theorem exec_mode_cases {i : Instr} {s t : State} (h : exec i s = .next t) :
    t.mode = s.mode ∨ (i = .reset ∧ t.mode = .idle) ∨
    (∃ p d l ut, i = .load p d l ut ∧ s.mode = .idle ∧ (p.toNat = 1 ∨ p.toNat = 2) ∧ (d.toNat = 1 ∨ d.toNat = 2) ∧
      (l.toNat = 1 ∨ l.toNat = 2) ∧ t = s.acceptLoad p d l ut) ∨
    (i = .resync ∧ s.mode = .commandMode ∧ t.mode = .playing) := by
  cases i with
  | reset =>
    cases h
    exact .inr (.inl ⟨rfl, rfl⟩)
  | load p d l ut =>
    rcases execLoad_cases p d l ut s with ⟨-, hex⟩ | ⟨hm, hp, hd, hl, hex⟩ | ⟨-, -, hex⟩ <;> cases hex.symm.trans h
    · exact .inl rfl
    · exact .inr (.inr (.inl ⟨p, d, l, ut, rfl, hm, hp, hd, hl, rfl⟩))
    · exact .inl rfl
  | append payload =>
    cases h
    exact .inl (State.acceptBatch_mode payload s)
  | resync =>
    cases h
    by_cases hm : s.mode = .commandMode
    · exact .inr (.inr (.inr ⟨rfl, hm, if_pos hm⟩))
    · exact .inl (if_neg hm)
  | _ =>
    cases h
    exact .inl rfl

/-- An Engine step keeps `mode`, or executes a fetched command, or completes a Load. -/
theorem engineStep_mode_cases {u t : State} (h : engineStep u = .next t) :
    t.mode = u.mode ∨
    (u.phase = .cmd ∧ ∃ f i, u.rxFrame? = some f ∧ decode f = .instr i ∧ exec i (u.checkConfig.fetch f) = .next t) ∨
    (u.phase = .loadRx ∧ u.load_trips = 1 ∧ t.mode = .playing) := by
  rcases engineStep_kinds h with heq | ⟨hp, -, f, hf, -, ⟨i, hd, hex⟩ | ⟨-, rfl⟩ | ⟨-, rfl⟩⟩ | ⟨hp, f, -, -, rfl⟩
  · exact .inl (by rw [heq])
  · exact .inr (.inl ⟨hp, f, i, hf, hd, hex⟩)
  · exact .inl u.checkConfig_mode
  · exact .inl u.checkConfig_mode
  · rw [State.loadBatch_mode, State.fetch_load_trips, State.fetch_mode]
    by_cases hlast : u.load_trips = 1
    · exact .inr (.inr ⟨hp, hlast, if_pos hlast⟩)
    · exact .inl (if_neg hlast)

/-- The other agents keep `mode`, but for power-up and the latch event that enters `CommandMode`. -/
theorem runEvent_mode_cases {e : Event} {u t : State} (h : runEvent e u = .next t) (he : e ≠ .engine) :
    t.mode = u.mode ∨ (e = .powerUp ∧ t.mode = .idle) ∨
    (e = .latch ∧ u.mode = .playing ∧ u.cmd_armed = true ∧ u.read_index + 1 = u.cmd_mode_start ∧ t.mode = .commandMode) := by
  by_cases hlatch : e = .latch
  · subst hlatch
    cases h
    rw [State.latch_eq]
    by_cases htick : u.mode = .playing ∧ u.cmd_armed = true ∧ u.read_index + 1 = u.cmd_mode_start
    · obtain ⟨hm, harm, hstart⟩ := htick
      exact .inr (.inr ⟨rfl, hm, harm, hstart, if_pos ⟨hm, harm, hstart⟩⟩)
    · exact .inl (if_neg htick)
  by_cases hpower : e = .powerUp
  · subst hpower
    cases h
    exact .inr (.inl ⟨rfl, rfl⟩)
  · exact .inl (by rw [runEvent_input h he hlatch hpower])

/-! ### In `Idle` -/

/-- In `Idle` a command keeps the mode, or is a Load with legal operands. -/
theorem exec_idle_cases {i : Instr} {s t : State} (hm : s.mode = .idle) (h : exec i s = .next t) :
    t.mode = .idle ∨ (t.mode = .loading ∧ ∃ p d l ut, i = .load p d l ut ∧ (p.toNat = 1 ∨ p.toNat = 2) ∧
      (d.toNat = 1 ∨ d.toNat = 2) ∧ (l.toNat = 1 ∨ l.toNat = 2)) := by
  rcases exec_mode_cases h with hkeep | ⟨-, hidle⟩ | ⟨p, d, l, ut, rfl, -, hp, hd, hl, rfl⟩ | ⟨-, hcm, -⟩
  · exact .inl (hkeep.trans hm)
  · exact .inl hidle
  · exact .inr ⟨rfl, p, d, l, ut, rfl, hp, hd, hl⟩
  · cases hm.symm.trans hcm

/-- A step that leaves `Idle` is an Engine step that executes a Load with legal operands. -/
theorem step_leaves_idle {s t : State} (hinv : s.Inv) (h : step s = .next t) (hm : s.mode = .idle) (ht : t.mode ≠ .idle) :
    t.mode = .loading ∧ s.nextEvent.1 = .engine ∧ ∃ f p d l ut, s.rxFrame? = some f ∧ decode f = .instr (.load p d l ut) ∧
      (p.toNat = 1 ∨ p.toNat = 2) ∧ (d.toNat = 1 ∨ d.toNat = 2) ∧ (l.toNat = 1 ∨ l.toNat = 2) := by
  rw [step, State.nextEvent_state] at h
  by_cases he : s.nextEvent.1 = .engine
  · rw [he] at h
    rcases engineStep_mode_cases h with hkeep | ⟨-, f, i, hf, hd, hex⟩ | ⟨hp, -, -⟩
    · exact absurd (hkeep.trans hm) ht
    · have hmode : (State.fetch f (State.checkConfig { s with agenda := s.agenda.tail })).mode = .idle := by simpa using hm
      rcases exec_idle_cases hmode hex with hidle | ⟨hload, p, d, l, ut, rfl, hlegal⟩
      · exact absurd hidle ht
      · exact ⟨hload, he, f, p, d, l, ut, hf, hd, hlegal⟩
    · cases hm.symm.trans (hinv.loading_iff.mpr (.inr hp))
  · rcases runEvent_mode_cases h he with hkeep | ⟨-, hidle⟩ | ⟨-, hplay, -⟩
    · exact absurd (hkeep.trans hm) ht
    · exact absurd hidle ht
    · cases hm.symm.trans hplay

/-- In `Idle` a Load with legal operands is accepted. -/
theorem exec_load_accepted {p d l : Byte} (ut : Byte) {s : State} (hm : s.mode = .idle) (hp : p.toNat = 1 ∨ p.toNat = 2)
    (hd : d.toNat = 1 ∨ d.toNat = 2) (hl : l.toNat = 1 ∨ l.toNat = 2) : exec (.load p d l ut) s = .next (s.acceptLoad p d l ut) := by
  rcases execLoad_cases p d l ut s with ⟨hn, -⟩ | ⟨-, -, -, -, hex⟩ | ⟨-, hn, -⟩
  · exact absurd hm hn
  · exact hex
  · exact absurd ⟨hp, hd, hl⟩ hn

/-- In `Idle` no layout is loaded (10_state.md R39). -/
theorem State.Inv.blocksize_idle {s : State} (h : s.Inv) (hm : s.mode = .idle) : s.blocksize = 0 := by
  rcases h.layout with ⟨-, -, -, -, hb⟩ | ⟨hn, -⟩
  · exact hb
  · exact absurd hm hn

/-- Without a layout, Bulk Append is dropped as malformed (43_cmd_data.md R200). -/
theorem exec_append_no_layout {s : State} (payload : List Byte) (hb : s.blocksize = 0) :
    exec (.append payload) s = .next (s.dropFrame .malformedPayload) := by
  rw [exec, execAppend, State.acceptBatch, State.decodeBatch_none (.inl hb)]
  rfl

/-- Settles O54: the exit is `step_leaves_idle`; every other command keeps `Idle` by `exec_idle_cases`, and Bulk Append finds no layout. -/
theorem idleIsLeftOnlyByLoad : Obligations.IdleIsLeftOnlyByLoad := by
  simp only [Obligations.IdleIsLeftOnlyByLoad, List.mem_cons, List.not_mem_nil, or_false]
  refine ⟨fun s t => step_leaves_idle, fun i s hm hop => ?_, fun p d l ut s hm hp hd hl => ?_, fun payload s hinv hm => ?_⟩
  · obtain ⟨t, ht⟩ := exec_answers_next i s
    rcases exec_idle_cases hm ht with hidle | ⟨-, p, d, l, ut, rfl, -⟩
    · exact ⟨t, ht, hidle⟩
    · exact absurd rfl hop
  · exact ⟨_, exec_load_accepted ut hm hp hd hl, rfl⟩
  · exact exec_append_no_layout payload (hinv.blocksize_idle hm)

end Sys2Proof.Machine
end

section
/-! O46: the acknowledgement decision of the `ACK` step (42_engine_loop.md R165). -/

namespace Sys2Proof.Machine

theorem engineStep_of_phase_ack {u : State} (hp : u.phase = .ack) : engineStep u = .next u.stepAck := by rw [engineStep, hp]

theorem State.ackDue_iff {s : State} : s.ackDue = true ↔ s.cfg = true ∧ s.ack_pending = true := by
  rw [State.ackDue, Bool.and_eq_true]

/-- The decision writes `phase` alone, from the two levels `cfg` and `ack_pending`. -/
theorem State.stepAck_eq (s : State) :
    s.stepAck = { s with phase := if s.cfg = true ∧ s.ack_pending = true then .ackTx else .cmd } := by
  rw [State.stepAck]
  simp only [State.ackDue_iff, State.goto]

/-- The decision does not look at `mode`. -/
theorem State.stepAck_phase_of_mode (s : State) (m : Mode) : (State.stepAck { s with mode := m }).phase = s.stepAck.phase := rfl

/-- RESET clears the acknowledgement (43_cmd_data.md R190). -/
theorem exec_reset_ack_pending {s t : State} (h : exec .reset s = .next t) : t.ack_pending = false := by
  cases h
  rfl

/-- RESYNC leaves the acknowledgement as it is (45_cmd_mode.md R232). -/
theorem exec_resync_ack_pending {s t : State} (h : exec .resync s = .next t) : t.ack_pending = s.ack_pending := by
  cases h
  rfl

/-- Settles O46: in `ACK` the step is `State.stepAck`, whatever `mode` is; the two commands are read off their assignments. -/
theorem acknowledgeDecision : Obligations.AcknowledgeDecision := by
  intro s u hturn hp
  refine ⟨?_, fun m => ?_, fun t => exec_reset_ack_pending, fun t => exec_resync_ack_pending⟩
  · rw [step_engine hturn, engineStep_of_phase_ack hp, State.stepAck_eq]
  · exact ⟨u.stepAck, State.stepAck { u with mode := m }, engineStep_of_phase_ack hp, engineStep_of_phase_ack hp,
      u.stepAck_phase_of_mode m⟩

end Sys2Proof.Machine
end

section
/-! O56: during a Load the Engine stays in the two Load phases and writes the Load's own state alone (43_cmd_data.md R203). -/

namespace Sys2Proof.Machine

/-! ### What an Engine step of a Load is -/

/-- While `Loading`, an Engine step sends the request, waits for a frame, or takes in a batch (41_mode_state_machine.md R143). -/
theorem engineStep_loading_cases {u t : State} (hinv : u.Inv) (hm : u.mode = .loading) (h : engineStep u = .next t) :
    (u.phase = .loadTx ∧ t = u.stepLoadTx) ∨ (u.phase = .loadRx ∧ t = u) ∨
    ∃ f, t = (u.fetch f).loadBatch := by
  have hcases := engineStep_cases h
  rcases hinv.loading_iff.mp hm with hp | hp <;>
    simp only [hp, reduceCtorEq, false_and, true_and, false_or, or_false] at hcases
  · exact .inl ⟨hp, hcases⟩
  · rcases hcases with ⟨-, ht⟩ | ⟨f, -, -, ht⟩
    · exact .inr (.inl ⟨hp, ht⟩)
    · exact .inr (.inr ⟨f, ht⟩)

/-! ### What it writes -/

/-- Everything the `LOAD_TX` step writes (43_cmd_data.md R196). -/
theorem State.stepLoadTx_eq (s : State) : s.stepLoadTx = { s with
    phase := if s.tx_ready then .loadRx else s.phase
    tx_sent := s.tx_sent ++ if s.tx_ready then [Config.REQ] else [] } := by
  rw [State.stepLoadTx]
  split
  · rfl
  · rw [List.append_nil]

theorem State.loadBatch_phase (s : State) : s.loadBatch.phase = if s.load_trips = 1 then .fc else .loadTx := by
  rw [State.loadBatch_eq]
  split <;> rfl

/-- Everything the batch half of a round trip writes, its last one included (43_cmd_data.md R197, R198). -/
theorem State.loadBatch_frame (s : State) : s.loadBatch = { s with
    ring := s.loadBatch.ring, write_index := s.loadBatch.write_index, no_data := s.loadBatch.no_data,
    fc_outstanding := s.loadBatch.fc_outstanding, raised := s.loadBatch.raised, load_trips := s.loadBatch.load_trips,
    cur_frame := s.loadBatch.cur_frame, mode := s.loadBatch.mode, phase := s.loadBatch.phase } := by
  rw [State.loadBatch_eq, State.acceptBatch_frame]
  split <;> rfl

/-! ### The obligation -/

/-- Settles O56: the Load goes on through the request and the wait, and a batch ends it exactly when it was the last. -/
theorem loadBlocksTheLoop : Obligations.LoadBlocksTheLoop := by
  intro s u t hinv hturn hm h
  have hu : u.Inv := by
    have hnext := hinv.next
    rwa [hturn] at hnext
  rw [step_engine hturn] at h
  rcases engineStep_loading_cases hu hm h with ⟨hp, rfl⟩ | ⟨hp, rfl⟩ | ⟨f, rfl⟩
  · rw [State.stepLoadTx_eq]
    cases hr : u.tx_ready with
    | false => exact ⟨.inl ⟨hm, .inl hp⟩, rfl⟩
    | true => exact ⟨.inl ⟨hm, .inr rfl⟩, rfl⟩
  · exact ⟨.inl ⟨hm, .inr hp⟩, rfl⟩
  · constructor
    · rw [State.loadBatch_mode, State.loadBatch_phase, State.fetch_load_trips, State.fetch_mode]
      by_cases hlast : u.load_trips = 1
      · exact .inr ⟨if_pos hlast, if_pos hlast, hlast⟩
      · exact .inl ⟨(if_neg hlast).trans hm, .inl (if_neg hlast)⟩
    · rw [State.loadBatch_frame]
      rfl

end Sys2Proof.Machine
end

section
/-! O16, O17: WINPER1 and ALWIDTH, as commands and from the bytes of a fetched frame (44_cmd_timing.md R210, R217). -/

namespace Sys2Proof.Machine

/-! ### The fields of the two commands under the configuration-change check -/

@[simp] theorem State.checkConfig_win_period1 (s : State) : s.checkConfig.win_period1 = s.win_period1 := by rw [State.checkConfig_eq]

@[simp] theorem State.checkConfig_win_period2 (s : State) : s.checkConfig.win_period2 = s.win_period2 := by rw [State.checkConfig_eq]

@[simp] theorem State.checkConfig_al_width (s : State) : s.checkConfig.al_width = s.al_width := by rw [State.checkConfig_eq]

@[simp] theorem State.checkConfig_al_div (s : State) : s.checkConfig.al_div = s.al_div := by rw [State.checkConfig_eq]

/-! ### A frame shorter than its format -/

/-- The Engine's turn in `CMD` with a frame that ends inside its operands (30_encoding.md R94, 60_exceptions.md R242). -/
theorem engineStep_cmd_tooShort {u : State} {o : Op} {args : List Byte} (hp : u.phase = .cmd) (hc : u.cfg = true)
    (hf : u.rxFrame? = some (o.code :: args)) (hl : (o.code :: args).length ≤ 64) (hd : decodeOperands o args = .tooShort) :
    engineStep u = .next ((u.checkConfig.fetch (o.code :: args)).dropFrame .malformedPayload) := by
  rw [engineStep_of_phase_cmd hp, stepCmd_frame hc hf hl, dispatch_fetch _ hl, decode_code, hd]

theorem decodeOperands_winper1_short {args : List Byte} (h : args.length < 2) : decodeOperands .winper1 args = .tooShort := by
  match args with
  | [] => rfl
  | [_] => rfl
  | _ :: _ :: _ => simp at h

/-! ### The obligations -/

/-- Settles O16: bytes 1 and 2 decode to their big-endian value, which the command stores; a frame without both is dropped. -/
theorem winper1SetsPort1WindowPeriod : Obligations.Winper1SetsPort1WindowPeriod := by
  refine ⟨fun _ _ => rfl, fun s u hi lo extra hturn hp hc hf hextra => ?_, fun s u args hturn hp hc hf hshort => ?_⟩
  · have hl : (Op.winper1.code :: hi :: lo :: extra).length ≤ 64 := by simp only [List.length_cons]; omega
    refine ⟨_, (step_engine hturn).trans (engineStep_cmd (o := .winper1) hp hc hf hl rfl), be16_toNat hi lo, ?_⟩
    rw [State.fetch_win_period2, State.checkConfig_win_period2]
  · have hl : (Op.winper1.code :: args).length ≤ 64 := by rw [List.length_cons]; omega
    refine ⟨_, (step_engine hturn).trans (engineStep_cmd_tooShort (o := .winper1) hp hc hf hl (decodeOperands_winper1_short hshort)), ?_, ?_⟩
    · simp
    · simp

/-- Settles O17: the command writes the byte to both fields; a frame without byte 1 is dropped. -/
theorem alwidthSetsWidthAndDivisor : Obligations.AlwidthSetsWidthAndDivisor := by
  refine ⟨fun _ _ => ⟨_, rfl, rfl, rfl⟩, fun s u v extra hturn hp hc hf hextra => ?_, fun s u hturn hp hc hf => ?_⟩
  · have hl : (Op.alwidth.code :: v :: extra).length ≤ 64 := by simp only [List.length_cons]; omega
    exact ⟨_, (step_engine hturn).trans (engineStep_cmd (o := .alwidth) hp hc hf hl rfl), rfl, rfl⟩
  · have hl : [Op.alwidth.code].length ≤ 64 := by decide
    refine ⟨_, (step_engine hturn).trans (engineStep_cmd_tooShort (o := .alwidth) hp hc hf hl rfl), ?_, ?_⟩
    · simp
    · simp

end Sys2Proof.Machine
end

section
/-! O24: PING writes `phase` alone, and the pong is the byte of the `PING_TX` step (45_cmd_mode.md R233, R234). -/

namespace Sys2Proof.Machine

/-- PING looks at no state element, `mode` included. -/
theorem exec_ping (s : State) : exec .ping s = .next { s with phase := .pingTx } := rfl

theorem engineStep_of_phase_pingTx {u : State} (hp : u.phase = .pingTx) : engineStep u = .next u.stepPingTx := by
  rw [engineStep, hp]

theorem State.stepPingTx_ready {s : State} (h : s.tx_ready = true) :
    s.stepPingTx = { s with tx_sent := s.tx_sent ++ [Config.PONG], phase := .fc } := if_pos h

/-- The pong, once the transport is ready. -/
theorem step_pong {s : State} (ha : s.agenda = []) (hp : s.phase = .pingTx) (hr : s.tx_ready = true) :
    step s = .next { s with tx_sent := s.tx_sent ++ [Config.PONG], phase := .fc } := by
  rw [step_idle_agenda ha, engineStep_of_phase_pingTx hp, State.stepPingTx_ready hr]

/-- Settles O24: a frame with opcode `FF` decodes to PING whatever follows it, so the fetched command is `exec_ping`; the pong is
`step_pong` from the phase PING leaves behind. -/
theorem pingChangesOnlyPhase : Obligations.PingChangesOnlyPhase := by
  refine ⟨fun s => ⟨exec_ping s, fun hagenda hready => ?_⟩, fun s u extra hturn hp hc hf hextra => ?_⟩
  · exact step_pong (s := { s with phase := .pingTx }) hagenda rfl hready
  · have hl : (Op.ping.code :: extra).length ≤ 64 := by rw [List.length_cons]; omega
    calc step s = engineStep u := step_engine hturn
      _ = exec .ping (u.checkConfig.fetch (Op.ping.code :: extra)) := engineStep_cmd (o := .ping) hp hc hf hl rfl
      _ = .next { u.checkConfig.fetch (0xFF#8 :: extra) with phase := .pingTx } := exec_ping _

end Sys2Proof.Machine
end

section
/-! O40: a latch event at the head of the agenda is the next step whatever the rest of the state is, and it leaves the agenda behind
it alone, so the occurrence that follows is the step after (60_exceptions.md R249). -/

namespace Sys2Proof.Machine

@[simp] theorem State.latch_read_index (s : State) : s.latch.read_index = s.read_index + 1 := by rw [State.latch_eq]

@[simp] theorem State.latch_agenda (s : State) : s.latch.agenda = s.agenda := by rw [State.latch_eq]

/-- No premise on `phase`, `mode` or the Transport: nothing holds a latch event back. -/
theorem step_latch {s : State} {rest : List Event} (h : s.agenda = .latch :: rest) :
    step s = .next (State.latch { s with agenda := rest }) := step_of_turn (State.nextEvent_cons h)

/-- What one occurrence leaves for the next: the agenda behind it, and the index advanced by one. -/
theorem step_latch_advances {s : State} {rest : List Event} (h : s.agenda = .latch :: rest) :
    ∃ t, step s = .next t ∧ t.agenda = rest ∧ t.read_index = s.read_index + 1 :=
  ⟨_, step_latch h, State.latch_agenda _, State.latch_read_index _⟩

/-- Settles O40: one occurrence is `step_latch`; two are `step_latch_advances` twice, as the first leaves the second at the head of
the agenda. -/
theorem latchEventsAreNeverBlocked : Obligations.LatchEventsAreNeverBlocked := by
  refine fun s rest => ⟨fun h => ⟨step_latch h, State.latch_read_index _⟩, fun h => ?_⟩
  obtain ⟨u, hfirst, hagenda, hu⟩ := step_latch_advances h
  obtain ⟨t, hsecond, hrest, ht⟩ := step_latch_advances hagenda
  refine ⟨t, ?_, hrest, ?_⟩
  · rw [core_run_succ 1 hfirst, core_run_succ 0 hsecond, core_run_zero]
  · calc t.read_index = s.read_index + 1 + 1 := by rw [ht, hu]
      _ = s.read_index + 2 := add_assoc _ 1 1

end Sys2Proof.Machine
end

section
/-! O8, O9, O10, O11: decode and encode agree, up to the bytes a fixed format ignores (30_encoding.md R93 to R95). -/

namespace Sys2Proof

/-! ### Operands -/

/-- The operand bytes of a command decode to it; behind a fixed format any bytes may follow (30_encoding.md R94). -/
theorem decodeOperands_operandBytes (i : Instr) (extra : List Byte) (h : i.op = .append → extra = []) :
    decodeOperands i.op (i.operandBytes ++ extra) = .instr i := by
  cases i with
  | append payload => rw [h rfl, List.append_nil]; rfl
  | _ => simp [Instr.op, Instr.operandBytes, decodeOperands]

/-- Operands that decode begin with the operand bytes of what they decode to, and a batch is all operand bytes. -/
theorem decodeOperands_instr {o : Op} {args : List Byte} {i : Instr} (h : decodeOperands o args = .instr i) :
    i.op = o ∧ ∃ extra, args = i.operandBytes ++ extra ∧ (i.op = .append → extra = []) := by
  revert h
  fun_cases decodeOperands o args <;> intro h <;> cases h
  case case4 => exact ⟨rfl, [], by simp [Instr.operandBytes], fun _ => rfl⟩
  all_goals exact ⟨rfl, _, by simp [Instr.operandBytes]; rfl, nofun⟩

/-- Operands are decoded only from a frame as long as the opcode's format asks (30_encoding.md R94). -/
theorem minCnt_le_of_decodeOperands {o : Op} {args : List Byte} :
    decodeOperands o args ≠ .tooShort → o.format.minCnt ≤ args.length + 1 := by
  fun_cases decodeOperands o args <;> simp [Op.format, Format.minCnt]

/-- A frame shorter than its opcode's format has no operands to decode. -/
theorem decodeOperands_short {o : Op} {args : List Byte} (h : args.length + 1 < o.format.minCnt) :
    decodeOperands o args = .tooShort := by
  by_contra hne
  exact absurd (minCnt_le_of_decodeOperands hne) (Nat.not_le.mpr h)

/-! ### Frames -/

theorem decode_encode_append (i : Instr) (extra : List Byte) (h : i.op = .append → extra = []) :
    decode (encode i ++ extra) = .instr i := by
  rw [encode, List.cons_append, decode_code, decodeOperands_operandBytes i extra h]

/-- Every command's frame has the form its opcode's row gives it. -/
theorem Laws.FrameForm.all : ∀ i : Instr, Laws.FrameForm.Statement i
  | .reset => reset
  | .load p d l ut => load p d l ut
  | .append payload => append payload
  | .winper1 v => winper1 v
  | .winoff1 v => winoff1 v
  | .tmroff => tmroff
  | .tmron => tmron
  | .clkdiv1 v => clkdiv1 v
  | .clkdiv2 v => clkdiv2 v
  | .alcfg en sel => alcfg en sel
  | .alwidth v => alwidth v
  | .arm v => arm v
  | .resync => resync
  | .ping => ping

/-- Settles O8: an encoding is an opcode and operand bytes, which decode one after the other. -/
theorem decodeOfEncodeIsTheCommand : Obligations.DecodeOfEncodeIsTheCommand := by
  intro i hwf
  obtain ⟨-, -, -, hfits⟩ := Laws.FrameForm.all i hwf
  refine ⟨?_, hfits⟩
  simpa using decode_encode_append i [] fun _ => rfl

/-- Settles O9: the opcode map reads the opcode back, and the operands begin with their encoding. -/
theorem decodedFrameStartsWithItsEncoding : Obligations.DecodedFrameStartsWithItsEncoding := by
  intro b i h
  cases b with
  | nil => cases h
  | cons b args =>
    rw [decode] at h
    cases ho : Op.ofByte b with
    | none =>
      rw [ho] at h
      cases h
    | some o =>
      rw [ho] at h
      obtain ⟨rfl, extra, rfl, hbatch⟩ := decodeOperands_instr h
      exact ⟨extra, by rw [Op.ofByte_some ho]; rfl, hbatch⟩

/-- Settles O10: a fixed format ignores what follows its operand bytes. -/
theorem excessBytesAreIgnored : Obligations.ExcessBytesAreIgnored :=
  fun i extra hop => decode_encode_append i extra fun h => absurd h hop

/-- Settles O11: the words are the encodings of R95's rows; the decoder reads each. -/
theorem opcodeMapWords : Obligations.OpcodeMapWords := by
  unfold Obligations.OpcodeMapWords
  decide

end Sys2Proof
end

section
/-! O2, O3: the invariant holds after power-up, and every event keeps it. -/

namespace Sys2Proof.Machine

/-! ### The Engine -/

theorem State.Inv.not_loading {s : State} (h : s.Inv) (htx : s.phase ≠ .loadTx) (hrx : s.phase ≠ .loadRx) : s.mode ≠ .loading :=
  fun hm => (h.loading_iff.mp hm).elim htx hrx

/-- A loop step writes the phase, the two request flags and the sent bytes; the invariant asks that they fit each other and the mode. -/
theorem State.Inv.loopStep {s : State} (h : s.Inv) {p : Phase} {fo ap : Bool} (sent : List Byte)
    (hm : s.mode = .loading ↔ p = .loadTx ∨ p = .loadRx) (hr : p = .fcTx → fo = false) (ha : p = .ackTx → ap = true) :
    ({ s with phase := p, fc_outstanding := fo, ack_pending := ap, tx_sent := sent } : State).Inv :=
  ⟨h.ring_wf, h.cbuf_wf, h.cnt_le, h.cbuf_written, h.queue_fits, h.layout, hm, h.trips, hr, ha, h.port2, h.autolatch⟩

theorem State.requestDue_iff {s : State} :
    s.requestDue = true ↔ s.cfg = true ∧ s.mode = .playing ∧ s.fc_outstanding = false ∧ 65 < s.freeSpace := by
  simp only [State.requestDue, Bool.and_eq_true, beq_iff_eq, Bool.not_eq_true', decide_eq_true_eq, and_assoc]

theorem State.Inv.stepFc {s : State} (h : s.Inv) (hp : s.phase = .fc) : s.stepFc.Inv := by
  have hm : s.mode ≠ .loading := h.not_loading (by simp [hp]) (by simp [hp])
  refine h.goto _ ?_ ?_ ?_
  · split <;> simp [hm]
  · intro hfc
    by_cases hdue : s.requestDue = true
    · obtain ⟨-, -, hnone, -⟩ := State.requestDue_iff.mp hdue
      exact hnone
    · simp [hdue] at hfc
  · split <;> simp

theorem State.Inv.stepFcTx {s : State} (h : s.Inv) (hp : s.phase = .fcTx) : s.stepFcTx.Inv := by
  have hm : s.mode ≠ .loading := h.not_loading (by simp [hp]) (by simp [hp])
  rw [State.stepFcTx]
  split
  · exact h.loopStep (p := .ack) (fo := true) (ap := s.ack_pending) _ (by simp [hm]) nofun nofun
  · exact h

theorem State.Inv.stepAck {s : State} (h : s.Inv) (hp : s.phase = .ack) : s.stepAck.Inv := by
  have hm : s.mode ≠ .loading := h.not_loading (by simp [hp]) (by simp [hp])
  refine h.goto _ ?_ ?_ ?_
  · split <;> simp [hm]
  · split <;> simp
  · intro hack
    by_cases hdue : s.ackDue = true
    · exact (State.ackDue_iff.mp hdue).2
    · simp [hdue] at hack

theorem State.Inv.stepAckTx {s : State} (h : s.Inv) (hp : s.phase = .ackTx) : s.stepAckTx.Inv := by
  have hm : s.mode ≠ .loading := h.not_loading (by simp [hp]) (by simp [hp])
  rw [State.stepAckTx]
  split
  · exact h.loopStep (p := .cmd) (fo := s.fc_outstanding) (ap := false) _ (by simp [hm]) nofun nofun
  · exact h

theorem State.Inv.stepPingTx {s : State} (h : s.Inv) (hp : s.phase = .pingTx) : s.stepPingTx.Inv := by
  have hm : s.mode ≠ .loading := h.not_loading (by simp [hp]) (by simp [hp])
  rw [State.stepPingTx]
  split
  · exact h.loopStep (p := .fc) (fo := s.fc_outstanding) (ap := s.ack_pending) _ (by simp [hm]) nofun nofun
  · exact h

theorem State.Inv.stepLoadTx {s : State} (h : s.Inv) (hp : s.phase = .loadTx) : s.stepLoadTx.Inv := by
  have hm : s.mode = .loading := h.loading_iff.mpr (.inl hp)
  rw [State.stepLoadTx]
  split
  · exact h.loopStep (p := .loadRx) (fo := s.fc_outstanding) (ap := s.ack_pending) _ (by simp [hm]) nofun nofun
  · exact h

theorem State.Inv.dropFrame {s : State} (h : s.Inv) (c : Condition) (hm : s.mode ≠ .loading) : (s.dropFrame c).Inv :=
  (h.raise c).goto .fc (by simp [hm]) nofun nofun

@[simp] theorem State.checkConfig_phase (s : State) : s.checkConfig.phase = s.phase := by rw [State.checkConfig_eq]

theorem State.Inv.engineStep {u t : State} (h : u.Inv) (ht : engineStep u = .next t) : t.Inv := by
  rcases engineStep_cases ht with ⟨hp, rfl⟩ | ⟨hp, rfl⟩ | ⟨hp, rfl⟩ | ⟨hp, rfl⟩ | ⟨hp, rfl⟩ | ⟨hp, rfl⟩ | ⟨hp, -, rfl⟩ |
    ⟨hp, -, f, -, hl, hd⟩ | ⟨-, -, rfl⟩ | ⟨hp, f, -, hl, rfl⟩
  · exact h.stepFc hp
  · exact h.stepFcTx hp
  · exact h.stepAck hp
  · exact h.stepAckTx hp
  · exact h.stepPingTx hp
  · exact h.stepLoadTx hp
  · have hm : u.mode ≠ .loading := h.not_loading (by simp [hp]) (by simp [hp])
    exact h.checkConfig.goto .fc (by simp [hm]) nofun nofun
  · have hm : u.mode ≠ .loading := h.not_loading (by simp [hp]) (by simp [hp])
    have hfetched : (u.checkConfig.fetch f).Inv := h.checkConfig.fetch hl
    rcases hd with ⟨i, -, hex⟩ | ⟨-, rfl⟩ | ⟨-, rfl⟩
    · exact hfetched.exec_keeps (by simpa using hp) hex
    · exact hfetched.dropFrame _ (by simpa using hm)
    · exact hfetched.dropFrame _ (by simpa using hm)
  · exact h
  · exact (h.fetch hl).loadBatch hp

/-! ### The other agents -/

theorem State.Inv.latch {s : State} (h : s.Inv) : s.latch.Inv := by
  rw [State.latch_eq]
  by_cases htick : s.mode = .playing ∧ s.cmd_armed = true ∧ s.read_index + 1 = s.cmd_mode_start
  · simp only [if_pos htick]
    obtain ⟨hm, -⟩ := htick
    have hlayout := h.layout
    have hphase := h.loading_iff
    have htrips := h.trips
    simp only [hm, reduceCtorEq, ne_eq, not_false_eq_true, true_and, false_and, false_or, false_iff]
      at hlayout hphase htrips
    exact ⟨h.ring_wf, h.cbuf_wf, h.cnt_le, h.cbuf_written, h.queue_fits, .inr ⟨nofun, hlayout⟩, ⟨nofun, fun hp => absurd hp hphase⟩,
      .inr ⟨nofun, htrips⟩, h.request_once, fun _ => rfl, h.port2, h.autolatch⟩
  · simp only [if_neg htick]
    exact ⟨h.ring_wf, h.cbuf_wf, h.cnt_le, h.cbuf_written, h.queue_fits, h.layout, h.loading_iff, h.trips, h.request_once,
      h.ack_served, h.port2, h.autolatch⟩

/-- Power-up is RESET over unwritten memories, which are canonical, and an empty queue. -/
theorem State.Inv.powerUp {s : State} (h : s.Inv) : s.powerUp.Inv := by
  have hr := h.resetCore
  exact ⟨rfl, rfl, Nat.zero_le _, fun i hi => absurd hi (Nat.not_lt_zero i), nofun, hr.layout, hr.loading_iff, hr.trips,
    hr.request_once, hr.ack_served, hr.port2, hr.autolatch⟩

theorem State.Inv.enqueue {s : State} (h : s.Inv) {f : List Byte} (hf : frameWf f = true) :
    ({ s with rx_queue := s.rx_queue ++ [f] } : State).Inv := by
  refine ⟨h.ring_wf, h.cbuf_wf, h.cnt_le, h.cbuf_written, fun g hg => ?_, h.layout, h.loading_iff, h.trips, h.request_once,
    h.ack_served, h.port2, h.autolatch⟩
  rcases List.mem_append.mp hg with hold | hnew
  · exact h.queue_fits g hold
  · rwa [List.mem_singleton.mp hnew]

theorem State.Inv.runEvent {e : Event} {u t : State} (h : u.Inv) (ht : runEvent e u = .next t) : t.Inv := by
  cases e with
  | engine => exact h.engineStep ht
  | latch => cases ht; exact h.latch
  | powerUp => cases ht; exact h.powerUp
  | hostSend f =>
    rw [Machine.runEvent] at ht
    split at ht
    · next hf =>
      cases ht
      exact h.enqueue hf
    · cases ht
  | setRxHold b => cases ht; exact h.setRxHold b
  | dropFrames => cases ht; exact h.loseFrames
  | _ =>
    cases ht
    exact ⟨h.ring_wf, h.cbuf_wf, h.cnt_le, h.cbuf_written, h.queue_fits, h.layout, h.loading_iff, h.trips, h.request_once,
      h.ack_served, h.port2, h.autolatch⟩

/-! ### The obligations -/

/-- Settles O2: after power-up nothing is listed, loaded or pending. -/
theorem powerUpMeetsInvariant : Obligations.PowerUpMeetsInvariant := by
  obtain ⟨hring, hcbuf⟩ := reset_memories_wf
  exact ⟨hring, hcbuf, Nat.zero_le _, fun i hi => absurd hi (Nat.not_lt_zero i), nofun, .inl ⟨rfl, rfl, rfl, rfl, rfl⟩, by decide,
    .inr ⟨nofun, rfl⟩, nofun, nofun, ⟨rfl, rfl⟩, rfl⟩

/-- Settles O3: taking the event off the agenda keeps the invariant, and so does every event. -/
theorem everyStepKeepsInvariant : Obligations.EveryStepKeepsInvariant :=
  fun _ _ hinv h => hinv.next.runEvent h

end Sys2Proof.Machine
end

section
/-! O35, O36: occupancy and free space from the two indices, and the full ring (40_ring_buffer.md R126, R127, R129). -/

namespace Sys2Proof.Machine

/-! ### Index arithmetic -/

theorem State.freeSpace_lt (s : State) : s.freeSpace < s.cap := by
  have hsum := s.freeSpace_add_occupied
  have hpos := s.cap_pos
  omega

/-- The occupancy is the true difference of the indices, reduced modulo `CAP`. -/
theorem State.occupied_eq_emod (s : State) :
    (s.occupied : Int) = ((s.write_index.toNat : Int) - (s.read_index.toNat : Int)) % (s.cap : Int) := by
  have hsum : (s.read_index.toNat : Int) + s.occupied ≡ s.write_index.toNat [ZMOD s.cap] := by
    exact_mod_cast Int.natCast_modEq_iff.mpr s.read_add_occupied
  have hdiff : (s.occupied : Int) ≡ s.write_index.toNat - s.read_index.toNat [ZMOD s.cap] := by
    simpa using hsum.sub_right (s.read_index.toNat : Int)
  rw [← hdiff, Int.emod_eq_of_lt (Int.natCast_nonneg _) (Int.ofNat_lt.mpr s.occupied_lt)]

/-- The write cursor, one more, and the free space lead round to the read cursor, modulo `CAP`. -/
theorem State.write_add_freeSpace (s : State) : s.write_index.toNat + 1 + s.freeSpace ≡ s.read_index.toNat [MOD s.cap] := by
  have hsum := s.freeSpace_add_occupied
  have hpos := s.cap_pos
  have hround : s.read_index.toNat + s.occupied + (1 + s.freeSpace) = s.read_index.toNat + s.cap := by omega
  calc s.write_index.toNat + 1 + s.freeSpace
      = s.write_index.toNat + (1 + s.freeSpace) := Nat.add_assoc _ _ _
    _ ≡ s.read_index.toNat + s.occupied + (1 + s.freeSpace) [MOD s.cap] := (s.read_add_occupied.add_right _).symm
    _ ≡ s.read_index.toNat [MOD s.cap] := by rw [hround]; exact Nat.add_mod_right _ _

/-- The free space as the hardware computes it: a masked difference of the indices (40_ring_buffer.md R132(b)). -/
theorem State.freeSpace_eq_masked (s : State) : s.freeSpace = (s.read_index - s.write_index - 1).toNat &&& (s.cap - 1) := by
  have hwrap : s.write_index.toNat + 1 + (s.read_index - s.write_index - 1).toNat ≡ s.read_index.toNat [MOD 2 ^ Config.IDXW] := by
    have hr := s.read_index.isLt
    have hw := s.write_index.isLt
    have hone : (1 : Index).toNat = 1 := rfl
    rw [Nat.ModEq, BitVec.toNat_sub, BitVec.toNat_sub, hone]
    simp only [two_pow_IDXW] at *
    omega
  have hsame := Nat.ModEq.add_left_cancel' _ (s.write_add_freeSpace.trans (hwrap.of_dvd s.cap_dvd).symm)
  rw [s.and_cap, ← hsame, Nat.mod_eq_of_lt s.freeSpace_lt]

/-- Settles O35: the two laws of the indices above, with the sum of the two counts. -/
theorem occupancyFromIndices : Obligations.OccupancyFromIndices :=
  fun s => ⟨s.occupied_eq_emod, s.occupied_le, s.freeSpace_add_occupied, s.freeSpace_eq_masked⟩

/-! ### The full ring -/

/-- A full ring stores no Frame of a batch (40_ring_buffer.md R125). -/
theorem State.pushBatch_full {s : State} (h : s.freeSpace = 0) (fs : List Frame) :
    s.pushBatch fs = { s with raised := (s.pushBatch fs).raised } := by
  rw [State.pushBatch_eq, h, List.take_zero, State.pushAll_nil]

theorem State.acceptBatch_full {s : State} (h : s.freeSpace = 0) (payload : List Byte) :
    s.acceptBatch payload = { s with
      fc_outstanding := (s.acceptBatch payload).fc_outstanding, raised := (s.acceptBatch payload).raised } := by
  rcases State.acceptBatch_cases payload s with ⟨fs, -, he⟩ | ⟨-, he⟩
  · rw [he, State.pushBatch_full h]
  · rw [he, State.raise]

theorem exec_ringRead_full {i : Instr} {s t : State} (hfull : s.freeSpace = 0) (h : exec i s = .next t) (a : Nat) :
    t.ringRead a = s.ringRead a := by
  cases i with
  | load p d l ut =>
    rcases execLoad_cases p d l ut s with ⟨-, hex⟩ | ⟨-, -, -, -, hex⟩ | ⟨-, -, hex⟩ <;> cases hex.symm.trans h <;> rfl
  | append payload =>
    cases h
    rw [State.acceptBatch_full hfull]
    rfl
  | _ =>
    cases h
    rfl

@[simp] theorem State.checkConfig_ringRead (s : State) (a : Nat) : s.checkConfig.ringRead a = s.ringRead a := by
  rw [State.checkConfig_eq]
  rfl

@[simp] theorem State.checkConfig_freeSpace (s : State) : s.checkConfig.freeSpace = s.freeSpace := by
  rw [State.checkConfig_eq]
  rfl

/-- The Engine writes no slot of a full ring. -/
theorem engineStep_ringRead_full {u t : State} (hfull : u.freeSpace = 0) (h : engineStep u = .next t) (a : Nat) :
    t.ringRead a = u.ringRead a := by
  rcases engineStep_kinds h with heq | ⟨-, -, f, -, -, ⟨i, -, hex⟩ | ⟨-, rfl⟩ | ⟨-, rfl⟩⟩ | ⟨-, f, -, -, rfl⟩
  · rw [heq]
    rfl
  · have hfetched : (u.checkConfig.fetch f).freeSpace = 0 := u.checkConfig_freeSpace.trans hfull
    exact (exec_ringRead_full hfetched hex a).trans (u.checkConfig_ringRead a)
  · exact u.checkConfig_ringRead a
  · exact u.checkConfig_ringRead a
  · rw [State.loadBatch_ringRead, State.acceptBatch_full (s := u.fetch f) hfull]
    rfl

/-- The other agents write no slot, but for power-up. -/
theorem runEvent_ringRead {e : Event} {u t : State} (h : runEvent e u = .next t) (he : e ≠ .engine) (hpower : e ≠ .powerUp)
    (a : Nat) : t.ringRead a = u.ringRead a := by
  by_cases hlatch : e = .latch
  · subst hlatch
    cases h
    rw [State.latch_eq]
    rfl
  · rw [runEvent_input h he hlatch hpower]
    rfl

/-- Settles O36: empty and full are read off the sum of the two counts; a full ring is written by no agent. -/
theorem emptyAndFull : Obligations.EmptyAndFull := by
  intro s
  have hsum := s.freeSpace_add_occupied
  refine ⟨s.occupied_eq_zero_iff, by omega, by omega, fun hfull => ⟨by rw [State.unread_length]; omega, fun t h hpower a => ?_⟩⟩
  rw [step, State.nextEvent_state] at h
  by_cases he : s.nextEvent.1 = .engine
  · rw [he] at h
    exact engineStep_ringRead_full (u := { s with agenda := s.agenda.tail }) hfull h a
  · exact runEvent_ringRead h he hpower a

end Sys2Proof.Machine
end

section
/-! O37: the ring is a queue of Frames; what each agent does to it (40_ring_buffer.md R120 to R128). -/

namespace Sys2Proof.Machine

theorem State.occupied_of_indices_eq {s : State} (h : s.read_index = s.write_index) : s.occupied = 0 :=
  s.occupied_eq_zero_iff.mpr (by rw [h])

theorem State.unread_of_indices_eq {s : State} (h : s.read_index = s.write_index) : s.unread = [] :=
  State.unread_empty (State.occupied_of_indices_eq h)

@[simp] theorem State.checkConfig_unread (s : State) : s.checkConfig.unread = s.unread := by
  rw [State.checkConfig_eq]
  rfl

/-- The queue of `t` is that of `s` with Frames at its end: no more than were free, and none unless `P` holds. -/
def AppendsUnread (s t : State) (P : Prop) : Prop :=
  ∃ fs, t.unread = s.unread ++ fs ∧ fs.length ≤ s.freeSpace ∧ (fs ≠ [] → P)

theorem appendsUnread_of_eq {s t : State} {P : Prop} (h : t.unread = s.unread) : AppendsUnread s t P :=
  ⟨[], by rw [h, List.append_nil], Nat.zero_le _, fun hne => absurd rfl hne⟩

/-- A command empties the queue (RESET, RESYNC), or appends to it (APPEND) no more than was free, or leaves it. -/
theorem exec_unread_cases {i : Instr} {s t : State} (h : exec i s = .next t) :
    ((i = .reset ∨ i = .resync) ∧ t.unread = []) ∨ AppendsUnread s t (∃ payload, i = .append payload) := by
  cases i with
  | reset =>
    cases h
    exact .inl ⟨.inl rfl, State.unread_of_indices_eq rfl⟩
  | resync =>
    cases h
    exact .inl ⟨.inr rfl, State.unread_of_indices_eq rfl⟩
  | append payload =>
    cases h
    obtain ⟨fs, happ, hroom⟩ := State.acceptBatch_unread payload s
    exact .inr ⟨fs, happ, hroom, fun _ => ⟨payload, rfl⟩⟩
  | load p d l ut =>
    rcases execLoad_cases p d l ut s with ⟨-, hex⟩ | ⟨-, -, -, -, hex⟩ | ⟨-, -, hex⟩ <;>
      cases hex.symm.trans h <;> exact .inr (appendsUnread_of_eq rfl)
  | _ =>
    cases h
    exact .inr (appendsUnread_of_eq rfl)

/-- The batch half of a Load round trip does to the queue what its batch does. -/
theorem State.loadBatch_unread (s : State) : s.loadBatch.unread = (s.acceptBatch s.payload).unread := by
  rw [State.loadBatch_eq]
  split <;> rfl

/-- An Engine step empties the queue by a fetched RESET or RESYNC, or appends to it by a Bulk Append or a Load batch, or leaves it. -/
theorem engineStep_unread_cases {u t : State} (h : engineStep u = .next t) :
    (u.phase = .cmd ∧ t.unread = [] ∧ ∃ f, u.rxFrame? = some f ∧ (decode f = .instr .reset ∨ decode f = .instr .resync)) ∨
    AppendsUnread u t (u.phase = .loadRx ∨
      (u.phase = .cmd ∧ ∃ f payload, u.rxFrame? = some f ∧ decode f = .instr (.append payload))) := by
  rcases engineStep_kinds h with heq | ⟨hp, -, f, hf, -, ⟨i, hd, hex⟩ | ⟨-, rfl⟩ | ⟨-, rfl⟩⟩ | ⟨hp, f, -, -, rfl⟩
  · exact .inr (appendsUnread_of_eq (by rw [heq]; rfl))
  · have hunread : (u.checkConfig.fetch f).unread = u.unread := u.checkConfig_unread
    have hfree : (u.checkConfig.fetch f).freeSpace = u.freeSpace := u.checkConfig_freeSpace
    rcases exec_unread_cases hex with ⟨rfl | rfl, hempty⟩ | ⟨fs, happ, hroom, hi⟩
    · exact .inl ⟨hp, hempty, f, hf, .inl hd⟩
    · exact .inl ⟨hp, hempty, f, hf, .inr hd⟩
    · refine .inr ⟨fs, hunread ▸ happ, hfree ▸ hroom, fun hne => .inr ⟨hp, f, ?_⟩⟩
      obtain ⟨payload, rfl⟩ := hi hne
      exact ⟨payload, hf, hd⟩
  · exact .inr (appendsUnread_of_eq u.checkConfig_unread)
  · exact .inr (appendsUnread_of_eq u.checkConfig_unread)
  · obtain ⟨fs, happ, hroom⟩ := State.acceptBatch_unread (u.fetch f).payload (u.fetch f)
    exact .inr ⟨fs, (State.loadBatch_unread _).trans happ, hroom, fun _ => .inl hp⟩

/-- Settles O37: the Engine's part is `engineStep_unread_cases`, the latch event's `State.latch_unread`; power-up leaves both indices
0, and the inputs write no part of the ring. -/
theorem ringIsABoundedQueue : Obligations.RingIsABoundedQueue := by
  intro s t h hunderrun
  rw [step, State.nextEvent_state] at h
  refine ⟨State.unread_head, s.unread_length, fun he => ?_, fun he => ?_, fun he => ?_, fun hlatch hpower he => ?_⟩
  · rw [he] at h
    cases h
    exact State.latch_unread (u := { s with agenda := s.agenda.tail }) fun hempty => hunderrun ⟨he, hempty⟩
  · rw [he] at h
    cases h
    exact State.unread_of_indices_eq rfl
  · rw [he] at h
    exact engineStep_unread_cases (u := { s with agenda := s.agenda.tail }) h
  · rw [runEvent_input h he hlatch hpower]
    rfl

end Sys2Proof.Machine
end

section
/-! O38, O39: the whole latch event, and the underrun (40_ring_buffer.md R130, 41_mode_state_machine.md R146). -/

namespace Sys2Proof.Machine

theorem step_of_latch_turn {s u : State} (h : s.nextEvent = (.latch, u)) : step s = .next u.latch := step_of_turn h

/-- Settles O39: the underrun's test, that the ring is empty, is that the indices agree modulo `CAP`. -/
theorem latchEventEffect : Obligations.LatchEventEffect := by
  intro s u hturn
  refine ⟨_, step_of_latch_turn hturn, ?_⟩
  rw [State.latch_eq]
  simp only [State.occupied_eq_zero_iff]

@[simp] theorem State.latch_cap (s : State) : s.latch.cap = s.cap := by
  rw [State.latch_eq]
  rfl

theorem State.latch_freeSpace_empty {s : State} (h : s.occupied = 0) : s.latch.freeSpace = 0 := by
  rw [State.freeSpace, State.latch_occupied_empty h, State.latch_cap, Nat.sub_self]

/-- A full ring takes nothing of a Bulk Append. -/
theorem exec_append_write_index_full {payload : List Byte} {s t : State} (hfull : s.freeSpace = 0)
    (h : exec (.append payload) s = .next t) : t.write_index = s.write_index := by
  cases h
  rw [State.goto_write_index, State.acceptBatch_full hfull]

/-- Settles O38: the index advances past the write cursor, so that no space is left and later batches are dropped whole. -/
theorem underrunLooksFull : Obligations.UnderrunLooksFull := by
  intro s u hturn hempty
  have hfull := State.latch_freeSpace_empty hempty
  exact ⟨_, step_of_latch_turn hturn, u.latch_read_index, State.latch_occupied_empty hempty, hfull,
    runEvent_ringRead (e := .latch) rfl nofun nofun, fun _ _ => exec_append_write_index_full hfull⟩

end Sys2Proof.Machine
end

section
/-! O53: every change of `mode` (41_mode_state_machine.md R141). -/

namespace Sys2Proof.Machine

/-- The mode that a fetched command finds is the one the step began with. -/
@[simp] theorem State.checkConfig_fetch_mode (s : State) (f : List Byte) : (s.checkConfig.fetch f).mode = s.mode := s.checkConfig_mode

/-- The latch event that enters `CommandMode` serves the arm (41_mode_state_machine.md R146). -/
theorem State.latch_tick {u : State} (h : u.mode = .playing ∧ u.cmd_armed = true ∧ u.read_index + 1 = u.cmd_mode_start) :
    u.latch.read_index = u.cmd_mode_start ∧ u.latch.ack_pending = true ∧ u.latch.cmd_armed = false := by
  obtain ⟨-, -, hstart⟩ := id h
  rw [State.latch_eq]
  exact ⟨hstart, if_pos h, if_pos h⟩

/-- Settles O53: an Engine step changes `mode` by a fetched RESET, LOAD or RESYNC, or by a Load's last batch; of the other events only
power-up and a latch event do. -/
theorem modeTransitions : Obligations.ModeTransitions := by
  intro s t hinv h hne
  rw [step, State.nextEvent_state] at h
  by_cases he : s.nextEvent.1 = .engine
  · rw [he] at h
    rcases engineStep_mode_cases h with hkeep | ⟨hp, f, i, hf, hd, hex⟩ | ⟨hp, hlast, hplay⟩
    · exact absurd hkeep hne
    · change s.phase = .cmd at hp
      have hm : s.mode ≠ .loading := hinv.not_loading (by simp [hp]) (by simp [hp])
      rcases exec_mode_cases hex with hkeep | ⟨rfl, hidle⟩ | ⟨p, d, l, ut, rfl, hidle, -, -, -, rfl⟩ | ⟨rfl, hcm, hplay⟩
      · exact absurd (hkeep.trans (State.checkConfig_fetch_mode _ f)) hne
      · exact .inl ⟨hidle, .inr ⟨he, hp, hm, f, hf, hd⟩⟩
      · rw [State.checkConfig_fetch_mode] at hidle
        exact .inr (.inl ⟨rfl, hidle, he, hp, rfl, f, p, d, l, ut, hf, hd⟩)
      · rw [State.checkConfig_fetch_mode] at hcm
        exact .inr (.inr (.inl ⟨hplay, he, .inr ⟨hcm, hp, f, hf, hd⟩⟩))
    · exact .inr (.inr (.inl ⟨hplay, he, .inl ⟨hinv.loading_iff.mpr (.inr hp), hp, hlast⟩⟩))
  · rcases runEvent_mode_cases h he with hkeep | ⟨hpower, hidle⟩ | ⟨hlatch, hplay, harm, hstart, hcm⟩
    · exact absurd hkeep hne
    · exact .inl ⟨hidle, .inl hpower⟩
    · rw [hlatch] at h
      cases h
      obtain ⟨hread, hack, harmed⟩ := State.latch_tick ⟨hplay, harm, hstart⟩
      exact .inr (.inr (.inr ⟨hcm, hplay, hlatch, harm, hread, hack, harmed⟩))

end Sys2Proof.Machine
end

section
/-! O26, O44, O45: what the Engine's decisions and sending phases write (42_engine_loop.md R162 to R166, 45_cmd_mode.md R234). -/

namespace Sys2Proof.Machine

/-! ### The step of each phase -/

theorem engineStep_of_phase_fc {u : State} (hp : u.phase = .fc) : engineStep u = .next u.stepFc := by rw [engineStep, hp]

theorem engineStep_of_phase_fcTx {u : State} (hp : u.phase = .fcTx) : engineStep u = .next u.stepFcTx := by rw [engineStep, hp]

theorem engineStep_of_phase_ackTx {u : State} (hp : u.phase = .ackTx) : engineStep u = .next u.stepAckTx := by rw [engineStep, hp]

theorem engineStep_of_phase_loadTx {u : State} (hp : u.phase = .loadTx) : engineStep u = .next u.stepLoadTx := by rw [engineStep, hp]

theorem engineStep_of_phase_loadRx {u : State} (hp : u.phase = .loadRx) : engineStep u = stepLoadRx u := by rw [engineStep, hp]

/-! ### What each writes -/

theorem State.stepFc_eq (s : State) : s.stepFc = { s with phase :=
    if s.cfg = true ∧ s.mode = .playing ∧ s.fc_outstanding = false ∧ 65 < s.freeSpace then .fcTx else .ack } := by
  rw [State.stepFc]
  simp only [State.requestDue_iff, State.goto]

theorem State.stepFcTx_eq (s : State) : s.stepFcTx = if s.tx_ready = true then
    { s with tx_sent := s.tx_sent ++ [Config.REQ], fc_outstanding := true, phase := .ack } else s := rfl

theorem State.stepAckTx_eq (s : State) : s.stepAckTx = if s.tx_ready = true then
    { s with tx_sent := s.tx_sent ++ [Config.ACK], ack_pending := false, phase := .cmd } else s := rfl

theorem State.stepPingTx_eq (s : State) : s.stepPingTx = if s.tx_ready = true then
    { s with tx_sent := s.tx_sent ++ [Config.PONG], phase := .fc } else s := rfl

theorem State.stepLoadTx_ite (s : State) : s.stepLoadTx = if s.tx_ready = true then
    { s with tx_sent := s.tx_sent ++ [Config.REQ], phase := .loadRx } else s := rfl

/-! ### The obligations -/

/-- Settles O44: the decision is `State.requestDue`, read out by `State.requestDue_iff`. -/
theorem flowControlDecision : Obligations.FlowControlDecision := by
  intro s u hturn hp
  rw [step_engine hturn, engineStep_of_phase_fc hp, State.stepFc_eq]

/-- Settles O45: each of the three phases is its own equation. -/
theorem sendingPhases : Obligations.SendingPhases := by
  refine fun s u hturn => ⟨fun hp => ?_, fun hp => ?_, fun hp => ?_⟩
  · rw [step_engine hturn, engineStep_of_phase_fcTx hp, State.stepFcTx_eq]
  · rw [step_engine hturn, engineStep_of_phase_ackTx hp, State.stepAckTx_eq]
  · rw [step_engine hturn, engineStep_of_phase_loadTx hp, State.stepLoadTx_ite]

/-- Settles O26: the fourth sending phase. -/
theorem pingTxSendsPong : Obligations.PingTxSendsPong := by
  intro s u hturn hp
  rw [step_engine hturn, engineStep_of_phase_pingTx hp, State.stepPingTx_eq]

end Sys2Proof.Machine
end

section
/-! O59: the bytes left in the command buffer never influence a step (10_state.md R26). -/

namespace Sys2Proof.Machine

/-! ### Another buffer under the same state -/

/-- The state with the command buffer `m` and its length `c` in the place of its own. -/
def State.withBuffer (m : List Host.Cell) (c : BitVec 7) (s : State) : State := { s with cbuf := m, cnt := c }

@[simp] theorem State.withBuffer_eraseBuffer (m : List Host.Cell) (c : BitVec 7) (s : State) :
    (s.withBuffer m c).eraseBuffer = s.eraseBuffer := rfl

theorem State.withBuffer_fetch (m : List Host.Cell) (c : BitVec 7) (s : State) (f : List Byte) :
    (s.withBuffer m c).fetch f = (s.fetch f).withBuffer (Memory.writeList m 0 f) (BitVec.ofNat 7 f.length) := rfl

theorem State.withBuffer_checkConfig (m : List Host.Cell) (c : BitVec 7) (s : State) :
    (s.withBuffer m c).checkConfig = s.checkConfig.withBuffer m c := by
  rw [State.checkConfig_eq, State.checkConfig_eq]
  rfl

/-- A Load batch looks at the buffer through its payload alone. -/
theorem State.withBuffer_loadBatch {m : List Host.Cell} {c : BitVec 7} {s : State} (hp : (s.withBuffer m c).payload = s.payload) :
    (s.withBuffer m c).loadBatch = s.loadBatch.withBuffer m c := by
  have hbatch : (s.withBuffer m c).acceptBatch s.payload = (s.acceptBatch s.payload).withBuffer m c := State.acceptBatch_buffer s.payload s m c
  rw [State.loadBatch_eq, hp, hbatch, State.loadBatch_eq s]
  show (if s.load_trips = 1 then _ else _) = _
  split <;> rfl

/-! ### Answers alike up to the buffer -/

/-- Two answers differ at most in the command buffer, and hold the same frame if a frame has been fetched: fewer than `n` wait. -/
def AlikeUpToBuffer (n : Nat) (o o' : Host.Outcome State Fault Refusal) : Prop :=
  (∃ t t', o = .next t ∧ o' = .next t' ∧ t.eraseBuffer = t'.eraseBuffer ∧ (t.rx_queue.length < n → t.frame = t'.frame)) ∨
  ∃ r, o = .refused r ∧ o' = .refused r

/-- Without a fetch, the frame in the buffer is not asked for. -/
theorem alike_of_queue_kept {n : Nat} {t t' : State} (he : t.eraseBuffer = t'.eraseBuffer) (hq : n ≤ t.rx_queue.length) :
    AlikeUpToBuffer n (.next t) (.next t') :=
  .inl ⟨t, t', rfl, rfl, he, fun hlt => absurd hq (Nat.not_le.mpr hlt)⟩

theorem alike_of_frame {n : Nat} {t t' : State} (he : t.eraseBuffer = t'.eraseBuffer) (hf : t.frame = t'.frame) :
    AlikeUpToBuffer n (.next t) (.next t') :=
  .inl ⟨t, t', rfl, rfl, he, fun _ => hf⟩

/-! ### The Engine -/

/-- The frame in the buffer depends on the buffer, `cnt`, and the free values only. -/
theorem State.frame_congr {s t : State} (hb : t.cbuf = s.cbuf) (hc : t.cnt = s.cnt) (hp : t.power_ups = s.power_ups) :
    t.frame = s.frame := by
  have hread : t.cbufRead = s.cbufRead := by
    funext i
    rw [State.cbufRead, State.cbufRead, hb, hp]
  rw [State.frame, State.frame, hc, hread]

theorem exec_frame {i : Instr} {s t : State} (h : exec i s = .next t) : t.frame = s.frame := by
  obtain ⟨-, hb, hc, -, -, -, -, -, -, -, -, hp⟩ := exec_leaves h
  exact State.frame_congr hb hc hp

theorem State.loadBatch_keeps_frame (s : State) : s.loadBatch.frame = s.frame := by
  rw [State.loadBatch_frame]
  rfl

section
variable (n : Nat) (u : State) (m : List Host.Cell) (c : BitVec 7)

/-- The same fetch over two buffers is followed by the same dispatch. -/
theorem dispatch_fetch_alike {f : List Byte} (hl : f.length ≤ 64) :
    AlikeUpToBuffer n (dispatch (u.fetch f)) (dispatch ((u.withBuffer m c).fetch f)) := by
  have hframe : (u.fetch f).frame = ((u.withBuffer m c).fetch f).frame := by rw [State.fetch_frame _ hl, State.fetch_frame _ hl]
  rw [dispatch_fetch _ hl, dispatch_fetch _ hl]
  cases decode f with
  | instr i =>
    obtain ⟨t, ht, ht'⟩ := exec_buffer i (u.fetch f) (Memory.writeList m 0 f) (BitVec.ofNat 7 f.length)
    have hother : exec i ((u.withBuffer m c).fetch f) = .next (t.withBuffer (Memory.writeList m 0 f) (BitVec.ofNat 7 f.length)) := ht'
    simp only [ht, hother]
    exact alike_of_frame rfl (((exec_frame ht).trans hframe).trans (exec_frame hother).symm)
  | unknownOpcode => exact alike_of_frame rfl hframe
  | tooShort => exact alike_of_frame rfl hframe

theorem loadBatch_fetch_alike {f : List Byte} (hl : f.length ≤ 64) :
    AlikeUpToBuffer n (.next (u.fetch f).loadBatch) (.next ((u.withBuffer m c).fetch f).loadBatch) := by
  have hpayload : ((u.withBuffer m c).fetch f).payload = (u.fetch f).payload := by
    rw [State.fetch_payload _ hl, State.fetch_payload _ hl]
  refine alike_of_frame ?_ ?_
  · rw [State.withBuffer_fetch] at hpayload ⊢
    rw [State.withBuffer_loadBatch hpayload, State.withBuffer_eraseBuffer]
  · rw [State.loadBatch_keeps_frame, State.loadBatch_keeps_frame, State.fetch_frame _ hl, State.fetch_frame _ hl]

theorem stepCmd_alike : AlikeUpToBuffer u.rx_queue.length (stepCmd u) (stepCmd (u.withBuffer m c)) := by
  by_cases hn : u.cfg = false ∨ u.rxFrame? = none
  · rw [stepCmd_none hn, stepCmd_none (u := u.withBuffer m c) hn, State.withBuffer_checkConfig]
    exact alike_of_queue_kept rfl (by simp)
  · rw [not_or, Bool.not_eq_false] at hn
    obtain ⟨hc, hsome⟩ := hn
    obtain ⟨f, hf⟩ := Option.ne_none_iff_exists'.mp hsome
    by_cases hl : f.length ≤ 64
    · rw [stepCmd_frame hc hf hl, stepCmd_frame (u := u.withBuffer m c) hc hf hl, State.withBuffer_checkConfig]
      exact dispatch_fetch_alike _ u.checkConfig m c hl
    · exact .inr ⟨_, stepCmd_long hc hf hl, stepCmd_long (u := u.withBuffer m c) hc hf hl⟩

theorem stepLoadRx_alike : AlikeUpToBuffer u.rx_queue.length (stepLoadRx u) (stepLoadRx (u.withBuffer m c)) := by
  cases hf : u.rxFrame? with
  | none =>
    rw [stepLoadRx_none hf, stepLoadRx_none (u := u.withBuffer m c) hf]
    exact alike_of_queue_kept rfl (Nat.le_refl _)
  | some f =>
    by_cases hl : f.length ≤ 64
    · rw [stepLoadRx_frame hf hl, stepLoadRx_frame (u := u.withBuffer m c) hf hl]
      exact loadBatch_fetch_alike _ u m c hl
    · exact .inr ⟨_, stepLoadRx_long hf hl, stepLoadRx_long (u := u.withBuffer m c) hf hl⟩

/-- A phase that sends or waits does not look at the buffer. -/
theorem alike_of_send {t : State} (hq : t.rx_queue = u.rx_queue) :
    AlikeUpToBuffer u.rx_queue.length (.next (if u.tx_ready = true then t else u))
      (.next (if u.tx_ready = true then t.withBuffer m c else u.withBuffer m c)) := by
  split
  · exact alike_of_queue_kept rfl (by rw [hq])
  · exact alike_of_queue_kept rfl (Nat.le_refl _)

theorem engineStep_alike : AlikeUpToBuffer u.rx_queue.length (engineStep u) (engineStep (u.withBuffer m c)) := by
  cases hp : u.phase with
  | fc =>
    rw [engineStep_of_phase_fc hp, engineStep_of_phase_fc (u := u.withBuffer m c) hp]
    exact alike_of_queue_kept rfl (Nat.le_refl _)
  | fcTx =>
    rw [engineStep_of_phase_fcTx hp, engineStep_of_phase_fcTx (u := u.withBuffer m c) hp, State.stepFcTx_eq, State.stepFcTx_eq]
    exact alike_of_send u m c rfl
  | ack =>
    rw [engineStep_of_phase_ack hp, engineStep_of_phase_ack (u := u.withBuffer m c) hp]
    exact alike_of_queue_kept rfl (Nat.le_refl _)
  | ackTx =>
    rw [engineStep_of_phase_ackTx hp, engineStep_of_phase_ackTx (u := u.withBuffer m c) hp, State.stepAckTx_eq, State.stepAckTx_eq]
    exact alike_of_send u m c rfl
  | cmd =>
    rw [engineStep_of_phase_cmd hp, engineStep_of_phase_cmd (u := u.withBuffer m c) hp]
    exact stepCmd_alike u m c
  | pingTx =>
    rw [engineStep_of_phase_pingTx hp, engineStep_of_phase_pingTx (u := u.withBuffer m c) hp, State.stepPingTx_eq, State.stepPingTx_eq]
    exact alike_of_send u m c rfl
  | loadTx =>
    rw [engineStep_of_phase_loadTx hp, engineStep_of_phase_loadTx (u := u.withBuffer m c) hp, State.stepLoadTx_ite, State.stepLoadTx_ite]
    exact alike_of_send u m c rfl
  | loadRx =>
    rw [engineStep_of_phase_loadRx hp, engineStep_of_phase_loadRx (u := u.withBuffer m c) hp]
    exact stepLoadRx_alike u m c

end

/-! ### The other agents -/

/-- No other agent looks at the buffer. -/
theorem runEvent_alike {e : Event} (he : e ≠ .engine) (u : State) (m : List Host.Cell) (c : BitVec 7) :
    (∃ t t', runEvent e u = .next t ∧ runEvent e (u.withBuffer m c) = .next t' ∧ t.eraseBuffer = t'.eraseBuffer) ∨
    ∃ r, runEvent e u = .refused r ∧ runEvent e (u.withBuffer m c) = .refused r := by
  cases e with
  | engine => exact absurd rfl he
  | latch =>
    refine .inl ⟨_, _, rfl, rfl, ?_⟩
    rw [State.latch_eq, State.latch_eq]
    rfl
  | hostSend f =>
    simp only [runEvent]
    split
    · exact .inl ⟨_, _, rfl, rfl, rfl⟩
    · exact .inr ⟨_, rfl, rfl⟩
  | setRxHold b =>
    refine .inl ⟨_, _, rfl, rfl, ?_⟩
    rw [State.setRxHold_eq, State.setRxHold_eq]
    rfl
  | dropFrames =>
    refine .inl ⟨_, _, rfl, rfl, ?_⟩
    rw [State.loseFrames_eq, State.loseFrames_eq]
    rfl
  | _ => exact .inl ⟨_, _, rfl, rfl, rfl⟩

/-! ### The obligation -/

/-- Whose turn it is depends on the agenda alone. -/
theorem State.nextEvent_event (s : State) : s.nextEvent.1 = s.agenda.headD .engine := by
  rw [State.nextEvent]
  cases s.agenda <;> rfl

/-- Settles O59: an Engine step reads the buffer only after its fetch has filled it; the other agents do not read it. -/
theorem staleBufferBytesNeverMatter : Obligations.StaleBufferBytesNeverMatter := by
  intro s m c
  have hevent : ({ s with cbuf := m, cnt := c } : State).nextEvent.1 = s.nextEvent.1 := by
    rw [State.nextEvent_event, State.nextEvent_event]
  rw [step, step, hevent, State.nextEvent_state, State.nextEvent_state]
  by_cases he : s.nextEvent.1 = .engine
  · rw [he]
    rcases engineStep_alike { s with agenda := s.agenda.tail } m c with ⟨t, t', ht, ht', hsame, hframe⟩ | hrefused
    · exact .inl ⟨t, t', ht, ht', hsame, fun _ => hframe⟩
    · exact .inr hrefused
  · rcases runEvent_alike he { s with agenda := s.agenda.tail } m c with ⟨t, t', ht, ht', hsame⟩ | hrefused
    · exact .inl ⟨t, t', ht, ht', hsame, fun hturn => absurd hturn he⟩
    · exact .inr hrefused

end Sys2Proof.Machine
end

section
/-! O1, O4, O5, O7: RESET and power-up (43_cmd_data.md R190, R191, 70_reset_and_hazards.md R270, R271). -/

namespace Sys2Proof.Machine

theorem exec_reset (s : State) : exec .reset s = .next s.resetCore := rfl

/-- Settles O1: the values of `State.reset`; the unwritten memories list nothing, and 127 free slots are those of the default `CAP`. -/
theorem powerUpValues : Obligations.PowerUpValues :=
  ⟨rfl, rfl, rfl, rfl, rfl, rfl, rfl, rfl, rfl, rfl, rfl, rfl, rfl, rfl, rfl, rfl, rfl, rfl, rfl, rfl, rfl, rfl, rfl, rfl, rfl, rfl, rfl,
    rfl, Memory.lookup_nil, Memory.lookup_nil, State.occupied_of_indices_eq rfl, rfl⟩

/-- Settles O4: RESET is `State.resetCore`, which sets both indices to 0. -/
theorem resetRestoresDefaults : Obligations.ResetRestoresDefaults :=
  fun s => ⟨_, exec_reset s, State.occupied_of_indices_eq rfl, rfl⟩

/-- Settles O5: none of the named elements is among RESET's assignments, and the current Frame is that of index 0. -/
theorem resetLeavesMemoriesAlone : Obligations.ResetLeavesMemoriesAlone := by
  intro s t h
  cases h
  exact ⟨⟨fun _ => rfl, fun _ => rfl⟩, rfl, rfl, rfl, rfl, congrArg s.ringRead s.slot_zero⟩

/-- Settles O7: power-up is RESET's assignments, then its own five. -/
theorem powerUpIsResetWithUnwrittenMemories : Obligations.PowerUpIsResetWithUnwrittenMemories := by
  intro s u t hturn h
  cases h
  exact ⟨_, step_of_turn hturn, rfl, rfl, fun _ => rfl, fun _ => rfl⟩

end Sys2Proof.Machine
end

section
/-! O13, O14, O15, O41, O42, O43, O55: the `CMD` step and the fetch, with a command, without one, and with a frame that is dropped
(42_engine_loop.md R167 to R171, 60_exceptions.md R240 to R247). -/

namespace Sys2Proof.Machine

theorem State.checkConfig_unchanged {s : State} (h : s.cfg_changed = false) : s.checkConfig = s := by
  rw [State.checkConfig, if_neg (by simp [h])]

/-! ### The fetched command -/

/-- Settles O41: check, fetch, and the meaning of what the fetched bytes decode to. -/
theorem stepRunsTheFetchedCommand : Obligations.StepRunsTheFetchedCommand := by
  intro s u f i hturn hp hc hf hl hd
  rw [step_engine hturn, engineStep_of_phase_cmd hp, stepCmd_frame hc hf hl, dispatch_fetch _ hl, hd]

/-- Settles O42: `State.fetch_cbufRead` says what the buffer holds after the fetch, inside the frame and beyond it. -/
theorem fetchFillsCommandBuffer : Obligations.FetchFillsCommandBuffer := by
  intro u f hl
  refine ⟨State.fetch_frame u hl, State.fetch_cnt_toNat u hl, rfl, fun i hi => ?_, rfl⟩
  rw [State.fetch_cbufRead, dif_neg (Nat.not_lt.mpr hi)]

/-- Settles O43: without a frame the step is the configuration-change check alone. -/
theorem cmdStepWithoutFrame : Obligations.CmdStepWithoutFrame := by
  intro s u hturn hp hidle
  rw [step_engine hturn, engineStep_of_phase_cmd hp, stepCmd_none (hidle.imp_right State.rxValid_eq_false.mp), State.checkConfig_eq]
  rfl

/-! ### Dropped and refused frames -/

/-- Settles O13: the empty frame has no opcode. -/
theorem emptyFrameIsIgnoredInCmd : Obligations.EmptyFrameIsIgnoredInCmd := by
  intro s u hturn hp hc hf
  refine ⟨_, rfl, ?_⟩
  rw [step_engine hturn, engineStep_cmd_unknownOpcode hp hc hf (Nat.zero_le _) rfl, ← State.checkConfig_raised]
  rfl

theorem minCnt_le (o : Op) : o.format.minCnt ≤ 5 := by cases o <;> decide

/-- Settles O14: operands that end inside the format do not decode, and the frame is dropped. -/
theorem shortFramesAreDropped : Obligations.ShortFramesAreDropped := by
  intro s u o args hturn hp hc hf hshort
  have hl : (o.code :: args).length ≤ 64 := by
    have := minCnt_le o
    rw [List.length_cons]
    omega
  refine ⟨_, rfl, ?_⟩
  rw [step_engine hturn, engineStep_cmd_tooShort hp hc hf hl (decodeOperands_short hshort), ← State.checkConfig_raised]
  rfl

/-- Settles O15: the interface tests the length when the Host sends, and the Engine tests it again at each of its two fetches. -/
theorem overlongFrameIsRefused : Obligations.OverlongFrameIsRefused := by
  refine ⟨fun s u f hturn => ?_, fun s u f hturn hf hlong hfetch => ?_⟩
  · rw [step_of_turn hturn, runEvent]
    simp only [frameWf_iff]
  · rw [step_engine hturn]
    rcases hfetch with ⟨hp, hc⟩ | hp
    · rw [engineStep_of_phase_cmd hp, stepCmd_long hc hf (Nat.not_le.mpr hlong)]
    · rw [engineStep_of_phase_loadRx hp, stepLoadRx_long hf (Nat.not_le.mpr hlong)]

/-- A command raises nothing, or the overrun, or is dropped whole. -/
theorem exec_raised_cases {i : Instr} {s t : State} (h : exec i s = .next t) :
    t.raised = s.raised ∨ t.raised = s.raised ++ [.overrun] ∨ ∃ c, t = s.dropFrame c := by
  cases i with
  | load p d l ut =>
    rcases execLoad_cases p d l ut s with ⟨-, hex⟩ | ⟨-, -, -, -, hex⟩ | ⟨-, -, hex⟩ <;> cases hex.symm.trans h
    · exact .inr (.inr ⟨_, rfl⟩)
    · exact .inl rfl
    · exact .inr (.inr ⟨_, rfl⟩)
  | append payload =>
    cases h
    rcases State.acceptBatch_cases payload s with ⟨fs, -, he⟩ | ⟨-, he⟩
    · rw [he, State.pushBatch_frame]
      by_cases hover : s.freeSpace < fs.length
      · exact .inr (.inl (if_pos hover))
      · exact .inl (if_neg hover)
    · exact .inr (.inr ⟨_, congrArg (State.goto .fc) he⟩)
  | _ =>
    cases h
    exact .inl rfl

/-- Settles O55: a frame that raises E1, E2 or E3 is one that the decoder or its command drops, and a drop writes nothing else. -/
theorem droppedFrameLeavesNoTrace : Obligations.DroppedFrameLeavesNoTrace := by
  intro s u t f hturn hp hc hnochange hf h hraised
  rw [step_engine hturn, engineStep_of_phase_cmd hp] at h
  have hl : f.length ≤ 64 := by
    by_contra hlong
    rw [stepCmd_long hc hf hlong] at h
    cases h
  have hdrop : ∃ c, t = (u.fetch f).dropFrame c := by
    rw [stepCmd_frame hc hf hl, State.checkConfig_unchanged hnochange, dispatch_fetch _ hl] at h
    cases hd : decode f <;> simp only [hd, Host.Outcome.next.injEq] at h
    case instr i =>
      rcases exec_raised_cases h with hnone | hover | hdrop
      · simp [hnone] at hraised
      · simp [hover] at hraised
      · exact hdrop
    case unknownOpcode => exact ⟨_, h.symm⟩
    case tooShort => exact ⟨_, h.symm⟩
  obtain ⟨c, rfl⟩ := hdrop
  rfl

end Sys2Proof.Machine
end

section
/-! O18 to O23, O25: the commands that write a register or two, and the frames that carry them (44_cmd_timing.md, 45_cmd_mode.md). -/

namespace Sys2Proof.Machine

/-- The Engine's turn in `CMD` with a frame whose opcode is `o`; the configuration-change check is written out, so that every other
field of the state the command acts on is `u`'s. -/
theorem step_cmd {s u : State} {o : Op} {args : List Byte} {i : Instr} (hturn : s.nextEvent = (.engine, u)) (hp : u.phase = .cmd)
    (hc : u.cfg = true) (hf : u.rxFrame? = some (o.code :: args)) (hl : args.length ≤ 63) (hd : decodeOperands o args = .instr i) :
    step s = exec i (State.fetch (o.code :: args)
      { u with reinits := if u.cfg_changed = true then u.reinits + 1 else u.reinits }) := by
  rw [step_engine hturn, engineStep_cmd hp hc hf (Nat.succ_le_succ hl) hd, State.checkConfig_eq]

/-! ### The timing commands -/

/-- Settles O18: one assignment each. -/
theorem portTimingCommandsWriteTheirField : Obligations.PortTimingCommandsWriteTheirField := fun _ _ _ => ⟨rfl, rfl, rfl⟩

/-- Settles O19: TMROFF assigns the one flag, TMRON both. -/
theorem timerCommandsSwitchWindowing : Obligations.TimerCommandsSwitchWindowing := fun _ => ⟨rfl, rfl⟩

/-- Settles O20: a flag byte counts as set when it is not zero. -/
theorem alcfgSetsEnableAndSelect : Obligations.AlcfgSetsEnableAndSelect := fun en _ _ => ⟨_, rfl, flagOf_iff en, rfl⟩

/-- Settles O21: the operand bytes decode whatever follows them, and each command writes its fields. -/
theorem timingFramesTakeEffectFromTheirBytes : Obligations.TimingFramesTakeEffectFromTheirBytes := by
  intro s u x y extra hturn hp hc
  have htwo : extra.length ≤ 61 → (x :: y :: extra).length ≤ 63 := fun hl => Nat.add_le_add_right hl 2
  have hone : extra.length ≤ 62 → (x :: extra).length ≤ 63 := fun hl => Nat.add_le_add_right hl 1
  refine ⟨fun hf hl => ?_, fun hf hl => ?_, fun hf hl => ?_, fun hf hl => ?_, fun hf hl => ?_, fun hf hl => ?_, fun hf hl => ?_⟩
  · exact ⟨_, step_cmd (o := .winoff1) hturn hp hc hf (htwo hl) rfl, be16_toNat x y, rfl⟩
  · exact ⟨_, step_cmd (o := .tmroff) hturn hp hc hf hl rfl, rfl, rfl⟩
  · exact ⟨_, step_cmd (o := .tmron) hturn hp hc hf hl rfl, rfl, rfl⟩
  · exact ⟨_, step_cmd (o := .clkdiv1) hturn hp hc hf (hone hl) rfl, rfl, rfl⟩
  · exact ⟨_, step_cmd (o := .clkdiv2) hturn hp hc hf (hone hl) rfl, rfl, rfl⟩
  · exact ⟨_, step_cmd (o := .alcfg) hturn hp hc hf (htwo hl) rfl, flagOf_iff x, rfl⟩
  · exact ⟨_, step_cmd (o := .alwidth) hturn hp hc hf (hone hl) rfl, rfl, rfl⟩

/-! ### The command-mode commands -/

/-- Settles O22: ARM makes two assignments, and its value is bytes 1 and 2. -/
theorem armSetsTheTick : Obligations.ArmSetsTheTick := by
  refine ⟨fun _ _ => rfl, fun s u hi lo extra hturn hp hc hf hl => ?_⟩
  exact ⟨_, step_cmd (o := .arm) hturn hp hc hf (Nat.add_le_add_right hl 2) rfl, be16_toNat hi lo, rfl, rfl⟩

/-- Settles O23: with the read cursor at the write cursor the ring is empty; `mode` is changed only from `CommandMode`. -/
theorem resyncDropsTheBacklog : Obligations.ResyncDropsTheBacklog :=
  fun _ => ⟨_, rfl, State.occupied_of_indices_eq rfl, fun hm => if_pos hm, fun hm => if_neg hm, rfl⟩

/-- Settles O25: the first step is RESYNC, which leaves the Engine in `PING_TX`; the second is the pong. -/
theorem resyncFrameAlwaysPings : Obligations.ResyncFrameAlwaysPings := by
  intro s extra hagenda hp hc hready hf hl
  have hresync := step_cmd (o := .resync) (State.nextEvent_nil hagenda) hp hc hf hl rfl
  exact ⟨_, (core_run_succ 1 hresync).trans (core_run_succ 0 (step_pong hagenda rfl hready)), rfl, rfl, rfl, rfl, rfl, rfl, rfl⟩

end Sys2Proof.Machine
end

section
/-! O48, O49, O50, O51: the poll loop, blocked, disconnected, idle, and with all three bytes due (42_engine_loop.md R160 to R176). -/

namespace Sys2Proof.Machine

/-- Settles O48: a sending phase without `tx_ready` and `LOAD_RX` without a frame answer the state they were given. -/
theorem blockedEngineWaits : Obligations.BlockedEngineWaits := by
  intro s u hturn hblocked
  rw [step_engine hturn]
  rcases hblocked with ⟨hnot, hp | hp | hp | hp⟩ | ⟨hnone, hp⟩
  · rw [engineStep_of_phase_fcTx hp, State.stepFcTx_eq, hnot, if_neg Bool.false_ne_true]
  · rw [engineStep_of_phase_ackTx hp, State.stepAckTx_eq, hnot, if_neg Bool.false_ne_true]
  · rw [engineStep_of_phase_pingTx hp, State.stepPingTx_eq, hnot, if_neg Bool.false_ne_true]
  · rw [engineStep_of_phase_loadTx hp, State.stepLoadTx_ite, hnot, if_neg Bool.false_ne_true]
  · rw [engineStep_of_phase_loadRx hp, stepLoadRx_none (State.rxValid_eq_false.mp hnone)]

/-! ### Disconnected -/

/-- The level `cfg` does not say whose turn it is. -/
theorem State.nextEvent_setCfg {s u : State} {e : Event} (level : Bool) (h : s.nextEvent = (e, u)) :
    ({ s with cfg := level } : State).nextEvent = (e, { u with cfg := level }) := by
  have hu : u = { s with agenda := s.agenda.tail } := by rw [← State.nextEvent_state, h]
  have he : e = s.agenda.headD .engine := by rw [← State.nextEvent_event, h]
  rw [hu, he]
  exact Prod.ext (State.nextEvent_event _) (State.nextEvent_state _)

theorem State.latch_setCfg (u : State) (level : Bool) : State.latch { u with cfg := level } = { u.latch with cfg := level } := by
  rw [State.latch_eq, State.latch_eq]
  rfl

/-- Settles O49: with `cfg` low both decisions are negative and the `CMD` step is its check; neither the input event nor the latch event
looks at `cfg`. -/
theorem disconnectedEngineIdles : Obligations.DisconnectedEngineIdles := by
  refine ⟨fun s u hturn hc => ⟨fun hp => ?_, fun hp => ?_, fun hp => ?_⟩, fun s u level hturn => ?_, fun s u level hturn => ?_⟩
  · rw [step_engine hturn, engineStep_of_phase_fc hp, State.stepFc_eq, if_neg (by simp [hc])]
  · rw [step_engine hturn, engineStep_of_phase_ack hp, State.stepAck_eq, if_neg (by simp [hc])]
  · exact cmdStepWithoutFrame s u hturn hp (.inl hc)
  · exact step_of_turn hturn
  · refine ⟨_, step_of_latch_turn hturn, ?_⟩
    rw [step_of_latch_turn (State.nextEvent_setCfg level hturn), State.latch_setCfg]

/-! ### Idle -/

/-- The order of the poll loop without anything to send (42_engine_loop.md R160). -/
def Phase.loopNext : Phase → Phase
  | .fc => .ack
  | .ack => .cmd
  | .fcTx | .ackTx | .cmd | .pingTx | .loadTx | .loadRx => .fc

/-- `State.quiescent` looks at `phase` in its last clause only. -/
theorem State.quiescent_goto {s : State} (h : s.quiescent) {p : Phase} (hp : p = .fc ∨ p = .ack ∨ p = .cmd) :
    ({ s with phase := p } : State).quiescent := by
  obtain ⟨hagenda, hrx, hchange, hreq, hack, -⟩ := h
  exact ⟨hagenda, hrx, hchange, hreq, hack, hp⟩

/-- An idle Engine goes one phase on and stays idle. -/
theorem step_quiescent {s : State} (h : s.quiescent) :
    step s = .next { s with phase := s.phase.loopNext } ∧ ({ s with phase := s.phase.loopNext } : State).quiescent := by
  obtain ⟨hagenda, hrx, hchange, hreq, hack, hphase⟩ := id h
  rw [step_idle_agenda hagenda]
  rcases hphase with hp | hp | hp <;> rw [hp]
  · refine ⟨?_, State.quiescent_goto h (.inr (.inl rfl))⟩
    rw [engineStep_of_phase_fc hp, State.stepFc, hreq]
    rfl
  · refine ⟨?_, State.quiescent_goto h (.inr (.inr rfl))⟩
    rw [engineStep_of_phase_ack hp, State.stepAck, hack]
    rfl
  · refine ⟨?_, State.quiescent_goto h (.inl rfl)⟩
    rw [engineStep_of_phase_cmd hp, stepCmd_none (.inr (State.rxValid_eq_false.mp hrx)), State.checkConfig_unchanged hchange]
    rfl

/-- Three steps of an idle Engine are one turn of the loop. -/
theorem core_run_quiescent_turn (n : Nat) {s : State} (h : s.quiescent) :
    Sys2Proof.core.run (n + 3) s = Sys2Proof.core.run n s := by
  obtain ⟨hfirst, h1⟩ := step_quiescent h
  obtain ⟨hsecond, h2⟩ := step_quiescent h1
  obtain ⟨hthird, -⟩ := step_quiescent h2
  rw [core_run_succ (n + 2) hfirst, core_run_succ (n + 1) hsecond, core_run_succ n hthird]
  have hturn : s.phase.loopNext.loopNext.loopNext = s.phase := by
    obtain ⟨-, -, -, -, -, hp | hp | hp⟩ := h <;> rw [hp] <;> rfl
  show Sys2Proof.core.run n { s with phase := s.phase.loopNext.loopNext.loopNext } = _
  rw [hturn]

/-- Settles O50: one step is `step_quiescent`, and every third one closes a turn of the loop. -/
theorem quiescentEngineIsSilent : Obligations.QuiescentEngineIsSilent := by
  intro s h
  have hstep := step_quiescent h
  refine ⟨fun hp => ?_, fun hp => ?_, fun hp => ?_, fun n => ?_⟩
  · rwa [hp] at hstep
  · rwa [hp] at hstep
  · rwa [hp] at hstep
  · induction n with
    | zero => exact core_run_zero s
    | succ n ih => rw [Nat.mul_succ, core_run_quiescent_turn (3 * n) h, ih]

/-! ### All three bytes due -/

/-- The request, once the transport is ready. -/
theorem step_request {s : State} (ha : s.agenda = []) (hp : s.phase = .fcTx) (hr : s.tx_ready = true) :
    step s = .next { s with tx_sent := s.tx_sent ++ [Config.REQ], fc_outstanding := true, phase := .ack } := by
  rw [step_idle_agenda ha, engineStep_of_phase_fcTx hp, State.stepFcTx_eq, if_pos hr]

/-- The acknowledgement, once the transport is ready. -/
theorem step_acknowledge {s : State} (ha : s.agenda = []) (hp : s.phase = .ackTx) (hr : s.tx_ready = true) :
    step s = .next { s with tx_sent := s.tx_sent ++ [Config.ACK], ack_pending := false, phase := .cmd } := by
  rw [step_idle_agenda ha, engineStep_of_phase_ackTx hp, State.stepAckTx_eq, if_pos hr]

theorem step_request_due {s : State} (ha : s.agenda = []) (hp : s.phase = .fc) (hdue : s.requestDue = true) :
    step s = .next { s with phase := .fcTx } := by
  rw [step_idle_agenda ha, engineStep_of_phase_fc hp, State.stepFc, if_pos hdue]
  rfl

theorem step_ack_due {s : State} (ha : s.agenda = []) (hp : s.phase = .ack) (hdue : s.ackDue = true) :
    step s = .next { s with phase := .ackTx } := by
  rw [step_idle_agenda ha, engineStep_of_phase_ack hp, State.stepAck, if_pos hdue]
  rfl

/-- Settles O51: decision and byte for the request, decision and byte for the acknowledgement, then PING and its byte. -/
theorem oneIterationSendsInOrder : Obligations.OneIterationSendsInOrder := by
  intro s extra hagenda hp hdue hpending hready hf hl
  have hc : s.cfg = true := (State.requestDue_iff.mp hdue).1
  have hack : ({ s with tx_sent := s.tx_sent ++ [Config.REQ], fc_outstanding := true, phase := .ack } : State).ackDue = true :=
    State.ackDue_iff.mpr ⟨hc, hpending⟩
  have hping := step_cmd (o := .ping)
    (s := { s with tx_sent := s.tx_sent ++ [Config.REQ] ++ [Config.ACK], fc_outstanding := true, ack_pending := false, phase := .cmd })
    (State.nextEvent_nil hagenda) rfl hc hf hl rfl
  refine ⟨_, calc
    Sys2Proof.core.run 6 s
    _ = Sys2Proof.core.run 5 { s with phase := .fcTx } := core_run_succ 5 (step_request_due hagenda hp hdue)
    _ = Sys2Proof.core.run 4 { s with tx_sent := s.tx_sent ++ [Config.REQ], fc_outstanding := true, phase := .ack } :=
      core_run_succ 4 (step_request hagenda rfl hready)
    _ = Sys2Proof.core.run 3 { s with tx_sent := s.tx_sent ++ [Config.REQ], fc_outstanding := true, phase := .ackTx } :=
      core_run_succ 3 (step_ack_due hagenda rfl hack)
    _ = Sys2Proof.core.run 2 { s with
        tx_sent := s.tx_sent ++ [Config.REQ] ++ [Config.ACK], fc_outstanding := true, ack_pending := false, phase := .cmd } :=
      core_run_succ 2 (step_acknowledge hagenda rfl hready)
    _ = Sys2Proof.core.run 1 _ := core_run_succ 1 hping
    _ = .next _ := core_run_succ 0 (step_pong hagenda rfl hready), ?_, rfl, rfl, rfl, rfl⟩
  simp

end Sys2Proof.Machine
end

section
/-! O27, O28: LOAD accepted and dropped (43_cmd_data.md R195, 60_exceptions.md R245, R250(c)). -/

namespace Sys2Proof.Machine

/-- A Load operand's legal values, as the statements list them. -/
theorem mem_one_two {n : Nat} : n ∈ [1, 2] ↔ n = 1 ∨ n = 2 := by simp

/-- Settles O27: the accepted Load's layout and round trips are `State.acceptLoad_layout`. -/
theorem loadIsAccepted : Obligations.LoadIsAccepted := by
  intro p d l ut s hm hp hd hl
  rw [mem_one_two] at hp hd hl
  obtain ⟨hports, hdatabits, hlines, hblock, htrips, -⟩ := State.acceptLoad_layout p d l ut s hp hd hl
  refine ⟨_, exec_load_accepted ut hm hp hd hl, hports, hdatabits, hlines, flagOf_iff ut, hblock, htrips, ?_, rfl⟩
  rw [State.layoutLoaded, hports, hlines, hdatabits, hblock]
  exact ⟨hp, hl, hd, rfl⟩

/-- Settles O28: the mode is tested first, then the operands. -/
theorem loadIsDropped : Obligations.LoadIsDropped := by
  intro p d l ut s
  simp only [mem_one_two]
  refine ⟨fun hm => ?_, fun hm hillegal => ?_⟩ <;>
    rcases execLoad_cases p d l ut s with ⟨hn, hex⟩ | ⟨hidle, hp, hd, hl, hex⟩ | ⟨hidle, -, hex⟩
  · exact hex
  · exact absurd hidle hm
  · exact absurd hidle hm
  · exact absurd hm hn
  · exact absurd ⟨hp, hd, hl⟩ hillegal
  · exact hex

end Sys2Proof.Machine
end

section
/-! O29, O30, O47: what a batch does, by Bulk Append and in a Load (43_cmd_data.md R194, R197 to R200). -/

namespace Sys2Proof.Machine

/-- Over a loaded layout, whole blocks are pushed and answer the request. -/
theorem State.acceptBatch_blocks {s : State} {payload : List Byte} (hb : s.blocksize ≠ 0)
    (hm : payload.length % s.blocksize.toNat = 0) :
    s.acceptBatch payload = { s.pushBatch (s.batchFrames payload) with fc_outstanding := false } := by
  rw [State.acceptBatch, State.decodeBatch_some hb hm]

theorem State.batchFrames_getElem (s : State) (payload : List Byte) {j : Nat} (hj : j < (s.batchFrames payload).length) :
    (s.batchFrames payload)[j] = decodeBlock s.ports.toNat s.lines.toNat s.databits.toNat
      ((payload.drop (j * s.blocksize.toNat)).take s.blocksize.toNat) := by
  simp only [State.batchFrames, List.getElem_map, List.getElem_range]

/-- A stored Frame is read back from its slot. -/
theorem State.pushBatch_ringRead_in (fs : List Frame) (s : State) {j : Nat} (hj : j < fs.length) (hroom : j < s.freeSpace) :
    (s.pushBatch fs).ringRead (s.slot (s.write_index + BitVec.ofNat Config.IDXW j)) = fs[j] := by
  have hstored := State.stored_length fs s
  have hfree := s.freeSpace_lt
  rw [State.pushBatch_ringRead, State.pushAll_ringRead_in _ s (by omega) (by omega), List.getElem_take]

/-- The slots outside the stored Frames are left alone. -/
theorem State.pushBatch_ringRead_out (fs : List Frame) (s : State) (a : Nat)
    (h : ∀ j, j < min fs.length s.freeSpace → s.slot (s.write_index + BitVec.ofNat Config.IDXW j) ≠ a) :
    (s.pushBatch fs).ringRead a = s.ringRead a := by
  rw [← State.stored_length] at h
  rw [State.pushBatch_ringRead, State.pushAll_ringRead_out _ s a h]

/-- Settles O29: the batch of whole blocks is pushed, and `push_batch` stores what the ring has room for. -/
theorem appendStoresFramesInOrder : Obligations.AppendStoresFramesInOrder := by
  intro payload s hb hm
  have hlen := State.batchFrames_length s payload
  have hex : exec (.append payload) s =
      .next { s.pushBatch (s.batchFrames payload) with fc_outstanding := false, phase := .fc } := by
    rw [exec, execAppend, State.acceptBatch_blocks hb hm]
    rfl
  refine ⟨_, _, hex, rfl, fun j hj => ?_, fun a ha => ?_, fun i => ?_, ?_, ?_⟩
  · rw [← State.batchFrames_getElem s payload (by omega)]
    exact State.pushBatch_ringRead_in _ s (by omega) (by omega)
  · rw [← hlen] at ha
    exact State.pushBatch_ringRead_out _ s a ha
  · rw [State.pushBatch_frame]
    rfl
  · rw [← hlen]
    exact State.pushBatch_occupied _ s
  · rw [← hlen, State.pushBatch_frame]

/-- Settles O30: what does not decode raises E2 and pushes nothing. -/
theorem malformedAppendIsDropped : Obligations.MalformedAppendIsDropped := by
  intro payload s hmalformed
  rw [exec, execAppend, State.acceptBatch, State.decodeBatch_none hmalformed]
  rfl

/-- Settles O47: after the fetch the payload is the frame's tail, and `State.loadBatch_eq` is Bulk Append's batch and the countdown. -/
theorem loadBatchStep : Obligations.LoadBatchStep := by
  intro s u v w f hturn hp hf hl hv hw
  subst hv
  cases hw
  rw [step_engine hturn, engineStep_loadRx hp hf hl, State.loadBatch_eq, State.fetch_payload u hl, State.fetch_load_trips]
  split <;> rfl

end Sys2Proof.Machine
end

section
/-! O32, O33: the block layouts, and the block of a Frame decodes to the Frame (30_encoding.md R98, R99, 43_cmd_data.md R193). -/

namespace Sys2Proof.Machine

/-- Settles O32: each pair of each layout is at its row-major place. -/
theorem eightBlockLayouts : Obligations.EightBlockLayouts :=
  fun _ _ _ _ _ _ _ _ => ⟨rfl, rfl, rfl, rfl, rfl, rfl, rfl, rfl⟩

/-! ### Blocks of pieces of one length -/

theorem length_flatMap_range {α : Type} {g : Nat → List α} {m : Nat} (hg : ∀ i, (g i).length = m) (n : Nat) :
    ((List.range n).flatMap g).length = n * m := by
  simp [List.length_flatMap, hg]

/-- Place `r` of piece `i` is place `i * m + r` of the whole. -/
theorem getElem?_flatMap_range {α : Type} {g : Nat → List α} {m : Nat} (hg : ∀ i, (g i).length = m) {n i r : Nat} (hi : i < n)
    (hr : r < m) : ((List.range n).flatMap g)[i * m + r]? = (g i)[r]? := by
  have hlen := length_flatMap_range hg
  induction n with
  | zero => exact absurd hi (Nat.not_lt_zero i)
  | succ n ih =>
    rw [List.range_succ, List.flatMap_append, List.flatMap_singleton]
    by_cases hlast : i = n
    · subst hlast
      rw [List.getElem?_append_right (by rw [hlen]; omega), hlen, Nat.add_sub_cancel_left]
    · have hbelow : i * m + r < n * m := calc
        i * m + r < (i + 1) * m := by rw [Nat.succ_mul]; omega
        _ ≤ n * m := Nat.mul_le_mul_right m (by omega)
      rw [List.getElem?_append_left (by rwa [hlen]), ih (by omega)]

/-! ### The words of a block -/

theorem wordBytes_length {d : Nat} (hd : d = 1 ∨ d = 2) (w : Channel) : (wordBytes d w).length = d := by
  rcases hd with rfl | rfl <;> rfl

/-- A word is read back where its bytes stand; a one-byte word has to have a zero lower byte. -/
theorem channelWord_of_wordBytes {d off : Nat} {block : List Byte} {w : Channel} (hd : d = 1 ∨ d = 2)
    (hblock : ∀ r, r < d → block[off + r]? = (wordBytes d w)[r]?) (hlow : d = 1 → loByte w = 0) : channelWord d block off = w := by
  rcases hd with rfl | rfl
  · have h0 : block[off]? = some (hiByte w) := hblock 0 Nat.one_pos
    rw [channelWord, if_neg (by decide), List.getD_eq_getElem?_getD, h0, ← hlow rfl]
    exact be16_bytes w
  · have h0 : block[off]? = some (hiByte w) := hblock 0 Nat.two_pos
    have h1 : block[off + 1]? = some (loByte w) := hblock 1 one_lt_two
    rw [channelWord, if_pos rfl, List.getD_eq_getElem?_getD, List.getD_eq_getElem?_getD, h0, h1]
    exact be16_bytes w

theorem encodeBlock_port_length {l d : Nat} (hd : d = 1 ∨ d = 2) (f : Frame) (p : Nat) :
    ((List.range l).flatMap fun L => wordBytes d (channelAt f (p + 1) L)).length = l * d :=
  length_flatMap_range (fun _ => wordBytes_length hd _) l

theorem encodeBlock_length {l d : Nat} (hd : d = 1 ∨ d = 2) (p : Nat) (f : Frame) : (encodeBlock p l d f).length = p * (l * d) :=
  length_flatMap_range (encodeBlock_port_length hd f) p

/-- The bytes of the pair `(p + 1, L)` stand at its row-major place (30_encoding.md R98). -/
theorem encodeBlock_getElem? {ports l d p L r : Nat} (hd : d = 1 ∨ d = 2) (f : Frame) (hp : p < ports) (hL : L < l) (hr : r < d) :
    (encodeBlock ports l d f)[(p * l + L) * d + r]? = (wordBytes d (channelAt f (p + 1) L))[r]? := by
  have hinside : L * d + r < l * d := calc
    L * d + r < (L + 1) * d := by rw [Nat.succ_mul]; omega
    _ ≤ l * d := Nat.mul_le_mul_right d hL
  have hplace : (p * l + L) * d + r = p * (l * d) + (L * d + r) := by ring
  rw [hplace, encodeBlock, getElem?_flatMap_range (encodeBlock_port_length hd f) hp hinside,
    getElem?_flatMap_range (fun _ => wordBytes_length hd _) hL hr]

/-- Each word of a Frame that the layout can carry comes back: out of the block, or as the neutral word outside the layout. -/
theorem channelOf_encodeBlock {ports l d : Nat} {f : Frame} (hd : d = 1 ∨ d = 2) (hfits : frameFits ports l d f) {p L : Nat}
    (hp : p = 0 ∨ p = 1) (hL : L = 0 ∨ L = 1) :
    channelOf ports l d (encodeBlock ports l d f) (p + 1) L = channelAt f (p + 1) L := by
  have hword := hfits (p + 1) L (by omega) hL
  rw [channelOf, Nat.add_sub_cancel]
  by_cases hheld : p + 1 ≤ ports ∧ L < l
  · rw [if_pos hheld] at hword ⊢
    obtain ⟨hport, hline⟩ := hheld
    exact channelWord_of_wordBytes hd (fun r hr => encodeBlock_getElem? hd f hport hline hr) hword
  · rw [if_neg hheld] at hword ⊢
    exact hword.symm

/-- Settles O33: the four words of the decoded block are the Frame's, by `channelOf_encodeBlock`. -/
theorem blockDecodeInvertsEncode : Obligations.BlockDecodeInvertsEncode := by
  intro p l d f _ _ hd hfits
  rw [mem_one_two] at hd
  constructor
  · rw [encodeBlock_length hd]
    ring
  · rw [decodeBlock, channelOf_encodeBlock (p := 0) (L := 0) hd hfits (.inl rfl) (.inl rfl),
      channelOf_encodeBlock (p := 0) (L := 1) hd hfits (.inl rfl) (.inr rfl),
      channelOf_encodeBlock (p := 1) (L := 0) hd hfits (.inr rfl) (.inl rfl),
      channelOf_encodeBlock (p := 1) (L := 1) hd hfits (.inr rfl) (.inr rfl)]
    rfl

end Sys2Proof.Machine
end

section
/-! O57: which agent writes the shared elements (10_state.md R46, 60_exceptions.md R256). -/

namespace Sys2Proof.Machine

/-! ### The read cursor -/

/-- Of the commands, RESET stores 0 in the read cursor and RESYNC the write cursor; no other writes it. -/
theorem exec_read_index_cases {i : Instr} {s t : State} (h : exec i s = .next t) :
    t.read_index = s.read_index ∨ (i = .reset ∧ t.read_index = 0) ∨ (i = .resync ∧ t.read_index = s.write_index) := by
  cases i with
  | reset =>
    cases h
    exact .inr (.inl ⟨rfl, rfl⟩)
  | resync =>
    cases h
    exact .inr (.inr ⟨rfl, rfl⟩)
  | load p d l ut =>
    rcases execLoad_cases p d l ut s with ⟨-, hex⟩ | ⟨-, -, -, -, hex⟩ | ⟨-, -, hex⟩ <;> cases hex.symm.trans h <;> exact .inl rfl
  | append payload =>
    cases h
    exact .inl (by rw [State.goto_read_index, State.acceptBatch_frame])
  | _ =>
    cases h
    exact .inl rfl

@[simp] theorem State.checkConfig_read_index (s : State) : s.checkConfig.read_index = s.read_index := by rw [State.checkConfig_eq]

@[simp] theorem State.checkConfig_write_index (s : State) : s.checkConfig.write_index = s.write_index := by rw [State.checkConfig_eq]

@[simp] theorem State.loadBatch_read_index (s : State) : s.loadBatch.read_index = s.read_index := by rw [State.loadBatch_frame]

theorem engineStep_read_index_cases {u t : State} (h : engineStep u = .next t) :
    t.read_index = u.read_index ∨ (u.phase = .cmd ∧ u.cfg = true ∧ ∃ f, u.rxFrame? = some f ∧
      ((decode f = .instr .reset ∧ t.read_index = 0) ∨ (decode f = .instr .resync ∧ t.read_index = u.write_index))) := by
  rcases engineStep_kinds h with heq | ⟨hp, hc, f, hf, -, ⟨i, hd, hex⟩ | ⟨-, rfl⟩ | ⟨-, rfl⟩⟩ | ⟨-, f, -, -, rfl⟩
  · exact .inl (by rw [heq])
  · rcases exec_read_index_cases hex with hkeep | ⟨rfl, hzero⟩ | ⟨rfl, hwrite⟩
    · exact .inl (hkeep.trans u.checkConfig_read_index)
    · exact .inr ⟨hp, hc, f, hf, .inl ⟨hd, hzero⟩⟩
    · exact .inr ⟨hp, hc, f, hf, .inr ⟨hd, hwrite.trans u.checkConfig_write_index⟩⟩
  · exact .inl u.checkConfig_read_index
  · exact .inl u.checkConfig_read_index
  · exact .inl (State.loadBatch_read_index _)

/-! ### The Transport's queue -/

@[simp] theorem State.checkConfig_rx_hold (s : State) : s.checkConfig.rx_hold = s.rx_hold := by rw [State.checkConfig_eq]

/-- The Engine takes at most the frame on offer, in `CMD` with the link configured or in `LOAD_RX`. -/
theorem engineStep_queue_cases {u t : State} (h : engineStep u = .next t) :
    t.rx_hold = u.rx_hold ∧ (t.rx_queue = u.rx_queue ∨
      (t.rx_queue = u.rx_queue.tail ∧ u.rxValid = true ∧ ((u.phase = .cmd ∧ u.cfg = true) ∨ u.phase = .loadRx))) := by
  have hvalid : ∀ f, u.rxFrame? = some f → u.rxValid = true := fun f hf => by rw [State.rxValid, hf]; rfl
  have htaken : ∀ f, (u.checkConfig.fetch f).rx_queue = u.rx_queue.tail := fun f => congrArg List.tail u.checkConfig_rx_queue
  rcases engineStep_kinds h with heq | ⟨hp, hc, f, hf, -, ⟨i, -, hex⟩ | ⟨-, rfl⟩ | ⟨-, rfl⟩⟩ | ⟨hp, f, hf, -, rfl⟩
  · rw [heq]
    exact ⟨rfl, .inl rfl⟩
  · obtain ⟨-, -, -, -, -, -, hhold, hqueue, -⟩ := exec_leaves hex
    exact ⟨hhold.trans u.checkConfig_rx_hold, .inr ⟨hqueue.trans (htaken f), hvalid f hf, .inl ⟨hp, hc⟩⟩⟩
  · exact ⟨u.checkConfig_rx_hold, .inr ⟨htaken f, hvalid f hf, .inl ⟨hp, hc⟩⟩⟩
  · exact ⟨u.checkConfig_rx_hold, .inr ⟨htaken f, hvalid f hf, .inl ⟨hp, hc⟩⟩⟩
  · rw [State.loadBatch_frame]
    exact ⟨rfl, .inr ⟨rfl, hvalid f hf, .inr hp⟩⟩

/-- Over a configured link the other agents, but for power-up, leave the frame on offer. -/
theorem runEvent_rxFrame? {e : Event} {u t : State} {f : List Byte} (h : runEvent e u = .next t) (he : e ≠ .engine)
    (hpower : e ≠ .powerUp) (hc : u.cfg = true) (hf : u.rxFrame? = some f) : t.rxFrame? = some f := by
  cases e with
  | engine => exact absurd rfl he
  | powerUp => exact absurd rfl hpower
  | latch =>
    cases h
    rw [State.latch_eq]
    exact hf
  | hostSend g =>
    rw [runEvent] at h
    split at h <;> cases h
    exact State.rxFrame?_append [g] hf
  | setRxHold b =>
    cases h
    exact State.setRxHold_rxFrame? b hc hf
  | dropFrames =>
    cases h
    rw [State.loseFrames_configured hc, hf]
  | _ =>
    cases h
    exact hf

/-! ### The build parameters -/

theorem runEvent_params {e : Event} {u t : State} (h : runEvent e u = .next t) : t.params = u.params := by
  by_cases he : e = .engine
  · subst he
    have hcheck : u.checkConfig.params = u.params := by rw [State.checkConfig_eq]
    rcases engineStep_kinds h with heq | ⟨-, -, f, -, -, ⟨i, -, hex⟩ | ⟨-, rfl⟩ | ⟨-, rfl⟩⟩ | ⟨-, f, -, -, rfl⟩
    · rw [heq]
    · obtain ⟨hparams, -⟩ := exec_leaves hex
      exact hparams.trans hcheck
    · exact hcheck
    · exact hcheck
    · rw [State.loadBatch_frame]
      rfl
  by_cases hlatch : e = .latch
  · subst hlatch
    cases h
    rw [State.latch_eq]
  by_cases hpower : e = .powerUp
  · subst hpower
    cases h
    rfl
  · rw [runEvent_input h he hlatch hpower]

/-- Settles O57: one lemma per agent and element. -/
theorem writersOfSharedState : Obligations.WritersOfSharedState := by
  intro s t h
  rw [step, State.nextEvent_state] at h
  refine ⟨fun he => ?_, fun he => ?_, fun he => ?_, fun hlatch he hpower => ?_, fun f hc hf he hpower => ?_, ?_⟩
  · rw [he] at h
    cases h
    rw [State.latch_eq]
  · rw [he] at h
    exact engineStep_read_index_cases (u := { s with agenda := s.agenda.tail }) h
  · rw [he] at h
    exact engineStep_queue_cases (u := { s with agenda := s.agenda.tail }) h
  · exact runEvent_input h he hlatch hpower
  · exact runEvent_rxFrame? h he hpower hc hf
  · exact runEvent_params (u := { s with agenda := s.agenda.tail }) h

end Sys2Proof.Machine
end

section
/-! O58: one flow-control request at a time (42_engine_loop.md R164). -/

namespace Sys2Proof.Machine

/-! ### The way to `FC_TX` -/

/-- A command goes on to `FC`, `PING_TX` or `LOAD_TX`. -/
theorem exec_phase_cases {i : Instr} {s t : State} (h : exec i s = .next t) : t.phase = .fc ∨ t.phase = .pingTx ∨ t.phase = .loadTx := by
  cases i with
  | load p d l ut =>
    rcases execLoad_cases p d l ut s with ⟨-, hex⟩ | ⟨-, -, -, -, hex⟩ | ⟨-, -, hex⟩ <;> cases hex.symm.trans h
    · exact .inl rfl
    · exact .inr (.inr rfl)
    · exact .inl rfl
  | ping | resync =>
    cases h
    exact .inr (.inl rfl)
  | _ =>
    cases h
    exact .inl rfl

/-- The Engine enters `FC_TX` only from the decision that a request is due. -/
theorem engineStep_to_fcTx {u t : State} (h : engineStep u = .next t) (ht : t.phase = .fcTx) :
    u.phase = .fcTx ∨ (u.phase = .fc ∧ u.requestDue = true) := by
  rcases engineStep_cases h with ⟨hp, rfl⟩ | ⟨hp, -⟩ | ⟨-, rfl⟩ | ⟨hp, rfl⟩ | ⟨hp, rfl⟩ | ⟨hp, rfl⟩ | ⟨-, -, rfl⟩ |
    ⟨-, -, f, -, -, hd⟩ | ⟨-, -, rfl⟩ | ⟨-, f, -, -, rfl⟩
  · by_cases hdue : u.requestDue = true
    · exact .inr ⟨hp, hdue⟩
    · simp [State.stepFc, hdue] at ht
  · exact .inl hp
  · rw [State.stepAck, State.goto_phase] at ht
    split at ht <;> cases ht
  · rw [State.stepAckTx_eq] at ht
    split at ht
    · cases ht
    · exact .inl ht
  · rw [State.stepPingTx_eq] at ht
    split at ht
    · cases ht
    · exact .inl ht
  · rw [State.stepLoadTx_ite] at ht
    split at ht
    · cases ht
    · exact .inl ht
  · cases ht
  · rcases hd with ⟨i, -, hex⟩ | ⟨-, rfl⟩ | ⟨-, rfl⟩
    · rcases exec_phase_cases hex with hp | hp | hp <;> cases hp.symm.trans ht
    · cases ht
    · cases ht
  · exact .inl ht
  · rw [State.loadBatch_phase] at ht
    split at ht <;> cases ht

/-! ### The outstanding request -/

/-- Of the commands, RESET and APPEND may clear the outstanding request. -/
theorem exec_fc_outstanding_cases {i : Instr} {s t : State} (h : exec i s = .next t) :
    t.fc_outstanding = s.fc_outstanding ∨ i = .reset ∨ ∃ payload, i = .append payload := by
  cases i with
  | reset => exact .inr (.inl rfl)
  | append payload => exact .inr (.inr ⟨payload, rfl⟩)
  | load p d l ut =>
    rcases execLoad_cases p d l ut s with ⟨-, hex⟩ | ⟨-, -, -, -, hex⟩ | ⟨-, -, hex⟩ <;> cases hex.symm.trans h <;> exact .inl rfl
  | _ =>
    cases h
    exact .inl rfl

@[simp] theorem State.checkConfig_fc_outstanding (s : State) : s.checkConfig.fc_outstanding = s.fc_outstanding := by
  rw [State.checkConfig_eq]

/-- Outside `LOAD_RX` the Engine clears an outstanding request by a fetched RESET or APPEND only. -/
theorem engineStep_fc_outstanding_cases {u t : State} (h : engineStep u = .next t) (hrx : u.phase ≠ .loadRx)
    (hout : u.fc_outstanding = true) :
    t.fc_outstanding = true ∨
      ∃ f, u.rxFrame? = some f ∧ (decode f = .instr .reset ∨ ∃ payload, decode f = .instr (.append payload)) := by
  rcases engineStep_cases h with ⟨-, rfl⟩ | ⟨-, rfl⟩ | ⟨-, rfl⟩ | ⟨-, rfl⟩ | ⟨-, rfl⟩ | ⟨-, rfl⟩ | ⟨-, -, rfl⟩ |
    ⟨-, -, f, hf, -, hd⟩ | ⟨-, -, rfl⟩ | ⟨hp, -⟩
  · exact .inl hout
  · rw [State.stepFcTx_eq]
    split
    · exact .inl rfl
    · exact .inl hout
  · exact .inl hout
  · rw [State.stepAckTx_eq]
    split <;> exact .inl hout
  · rw [State.stepPingTx_eq]
    split <;> exact .inl hout
  · rw [State.stepLoadTx_ite]
    split <;> exact .inl hout
  · exact .inl (u.checkConfig_fc_outstanding.trans hout)
  · rcases hd with ⟨i, hd, hex⟩ | ⟨-, rfl⟩ | ⟨-, rfl⟩
    · rcases exec_fc_outstanding_cases hex with hkeep | rfl | ⟨payload, rfl⟩
      · exact .inl ((hkeep.trans u.checkConfig_fc_outstanding).trans hout)
      · exact .inr ⟨f, hf, .inl hd⟩
      · exact .inr ⟨f, hf, .inr ⟨payload, hd⟩⟩
    · exact .inl (u.checkConfig_fc_outstanding.trans hout)
    · exact .inl (u.checkConfig_fc_outstanding.trans hout)
  · exact .inl hout
  · exact absurd hp hrx

/-- The other agents, but for power-up, keep the phase and the outstanding request. -/
theorem runEvent_request {e : Event} {u t : State} (h : runEvent e u = .next t) (he : e ≠ .engine) (hpower : e ≠ .powerUp) :
    t.phase = u.phase ∧ t.fc_outstanding = u.fc_outstanding := by
  by_cases hlatch : e = .latch
  · subst hlatch
    cases h
    rw [State.latch_eq]
    exact ⟨rfl, rfl⟩
  · rw [runEvent_input h he hlatch hpower]
    exact ⟨rfl, rfl⟩

/-- The two phases that send a request. -/
theorem Phase.sentByte?_ne_request {p : Phase} (hfc : p ≠ .fcTx) (hload : p ≠ .loadTx) : p.sentByte? ≠ some Config.REQ := by
  cases p with
  | fcTx => exact absurd rfl hfc
  | loadTx => exact absurd rfl hload
  | ackTx | pingTx => decide
  | _ => nofun

/-- A step outside the two requesting phases sends no request. -/
theorem step_sends_no_request {s t : State} (h : step s = .next t) (hfc : s.phase ≠ .fcTx) (hload : s.phase ≠ .loadTx) :
    t.tx_sent ≠ s.tx_sent ++ [Config.REQ] := by
  have hbyte := Phase.sentByte?_ne_request hfc hload
  rw [step_tx_sent h, ne_eq, List.append_cancel_left_eq]
  split
  · simpa using hbyte
  · simp

/-- Settles O58: with a request outstanding the Engine is not in `FC_TX` and does not enter it, and outside a Load no other phase sends
the byte. -/
theorem oneRequestAtATime : Obligations.OneRequestAtATime := by
  intro s t hinv h hout hm
  have hfc : s.phase ≠ .fcTx := fun hp => by simp [hinv.request_once hp] at hout
  have hloadTx : s.phase ≠ .loadTx := fun hp => hm (hinv.loading_iff.mpr (.inl hp))
  have hloadRx : s.phase ≠ .loadRx := fun hp => hm (hinv.loading_iff.mpr (.inr hp))
  refine ⟨step_sends_no_request h hfc hloadTx, ?_⟩
  rw [step, State.nextEvent_state] at h
  by_cases he : s.nextEvent.1 = .engine
  · rw [he] at h
    refine ⟨fun ht => ?_, ?_⟩
    · rcases engineStep_to_fcTx h ht with hp | ⟨-, hdue⟩
      · exact hfc hp
      · obtain ⟨-, -, hnone, -⟩ := State.requestDue_iff.mp hdue
        cases hnone.symm.trans hout
    · exact (engineStep_fc_outstanding_cases (u := { s with agenda := s.agenda.tail }) h hloadRx hout).imp_right .inr
  by_cases hpower : s.nextEvent.1 = .powerUp
  · rw [hpower] at h
    cases h
    exact ⟨nofun, .inr (.inl hpower)⟩
  · obtain ⟨hphase, hkept⟩ := runEvent_request h he hpower
    exact ⟨by rwa [hphase], .inl (hkept.trans hout)⟩

end Sys2Proof.Machine
end

section
/-! O60: a Load with its batches runs to `Playing` (43_cmd_data.md R195 to R198). -/

namespace Sys2Proof.Machine

/-- The Engine alone, ready to send, about to ask for the next batch, with the frames `q` waiting. -/
structure State.AtRoundTrip (s : State) (q : List (List Byte)) : Prop where
  agenda : s.agenda = []
  phase : s.phase = .loadTx
  ready : s.tx_ready = true
  hold : s.rx_hold = false
  queue : s.rx_queue = q

/-- What a Load of `k` more round trips leaves behind when it is done, with the frames `rest` still waiting. -/
structure LoadDone (s t : State) (k : Nat) (rest : List (List Byte)) : Prop where
  mode : t.mode = .playing
  phase : t.phase = .fc
  trips : t.load_trips = 0
  queue : t.rx_queue = rest
  sent : t.tx_sent = s.tx_sent ++ List.replicate k Config.REQ
  ports : t.ports = s.ports
  databits : t.databits = s.databits
  lines : t.lines = s.lines
  read_index : t.read_index = s.read_index
  cur_frame : t.cur_frame = t.peekCurrent
  ack_pending : t.ack_pending = s.ack_pending

/-- The state after the request of a round trip (43_cmd_data.md R196). -/
def State.requestBatch (s : State) : State := { s with tx_sent := s.tx_sent ++ [Config.REQ], phase := .loadRx }

/-- The state after one round trip whose batch is the frame `f` (43_cmd_data.md R197). -/
def State.roundTrip (f : List Byte) (s : State) : State := (s.requestBatch.fetch f).loadBatch

/-! ### One round trip -/

/-- A round trip is two Engine steps: the request, and the batch. -/
theorem core_run_roundTrip (n : Nat) {s : State} {f : List Byte} {q : List (List Byte)} (h : s.AtRoundTrip (f :: q)) (hl : f.length ≤ 64) :
    Sys2Proof.core.run (n + 2) s = Sys2Proof.core.run n (s.roundTrip f) := by
  have hrequest : step s = .next s.requestBatch := by
    rw [step_idle_agenda h.agenda, engineStep_of_phase_loadTx h.phase, State.stepLoadTx_ite, if_pos h.ready]
    rfl
  have hoffer : s.requestBatch.rxFrame? = some f := by simp [State.requestBatch, State.rxFrame?, h.hold, h.queue]
  have hbatch : step s.requestBatch = .next (s.roundTrip f) :=
    (step_idle_agenda (s := s.requestBatch) h.agenda).trans (engineStep_loadRx rfl hoffer hl)
  rw [core_run_succ (n + 1) hrequest, core_run_succ n hbatch]

/-- What every round trip leaves alone, its last one included. -/
theorem State.roundTrip_frame (f : List Byte) (s : State) : (s.roundTrip f).agenda = s.agenda ∧ (s.roundTrip f).tx_ready = s.tx_ready ∧
    (s.roundTrip f).rx_hold = s.rx_hold ∧ (s.roundTrip f).ports = s.ports ∧ (s.roundTrip f).databits = s.databits ∧
    (s.roundTrip f).lines = s.lines ∧ (s.roundTrip f).read_index = s.read_index ∧ (s.roundTrip f).ack_pending = s.ack_pending := by
  rw [State.roundTrip, State.loadBatch_frame]
  exact ⟨rfl, rfl, rfl, rfl, rfl, rfl, rfl, rfl⟩

@[simp] theorem State.roundTrip_rx_queue (f : List Byte) (s : State) : (s.roundTrip f).rx_queue = s.rx_queue.tail := by
  rw [State.roundTrip, State.loadBatch_frame]
  rfl

@[simp] theorem State.roundTrip_tx_sent (f : List Byte) (s : State) : (s.roundTrip f).tx_sent = s.tx_sent ++ [Config.REQ] :=
  State.loadBatch_tx_sent _

@[simp] theorem State.roundTrip_load_trips (f : List Byte) (s : State) : (s.roundTrip f).load_trips = s.load_trips - 1 :=
  State.loadBatch_load_trips _

/-- At completion `cur_frame` is the current Frame (43_cmd_data.md R198). -/
theorem State.loadBatch_cur_frame {s : State} (hlast : s.load_trips = 1) : s.loadBatch.cur_frame = s.loadBatch.peekCurrent := by
  rw [State.loadBatch_eq, if_pos hlast]
  rfl

/-- A round trip that is not the last leaves the Engine at the next one. -/
theorem State.AtRoundTrip.next {s : State} {f : List Byte} {q : List (List Byte)} (h : s.AtRoundTrip (f :: q)) (hmore : s.load_trips ≠ 1) :
    (s.roundTrip f).AtRoundTrip q := by
  obtain ⟨hagenda, hready, hhold, -⟩ := State.roundTrip_frame f s
  exact ⟨hagenda.trans h.agenda, (State.loadBatch_phase _).trans (if_neg hmore), hready.trans h.ready, hhold.trans h.hold,
    by rw [State.roundTrip_rx_queue, h.queue, List.tail_cons]⟩

/-- The last round trip completes the Load (43_cmd_data.md R198). -/
theorem State.AtRoundTrip.last {s : State} {f : List Byte} {q : List (List Byte)} (h : s.AtRoundTrip (f :: q)) (hlast : s.load_trips = 1) :
    LoadDone s (s.roundTrip f) 1 q := by
  obtain ⟨-, -, -, hports, hdatabits, hlines, hread, hack⟩ := State.roundTrip_frame f s
  refine ⟨(State.loadBatch_mode _).trans (if_pos hlast), (State.loadBatch_phase _).trans (if_pos hlast), ?_, ?_, ?_, hports, hdatabits,
    hlines, hread, ?_, hack⟩
  · rw [State.roundTrip_load_trips, hlast]
    rfl
  · rw [State.roundTrip_rx_queue, h.queue, List.tail_cons]
  · exact State.roundTrip_tx_sent f s
  · exact State.loadBatch_cur_frame (s := s.requestBatch.fetch f) hlast

/-- A round trip before the Load's `k` others makes it one of `k + 1`. -/
theorem LoadDone.cons {s t : State} {f : List Byte} {k : Nat} {rest : List (List Byte)} (h : LoadDone (s.roundTrip f) t k rest) :
    LoadDone s t (k + 1) rest := by
  obtain ⟨-, -, -, hports, hdatabits, hlines, hread, hack⟩ := State.roundTrip_frame f s
  refine ⟨h.mode, h.phase, h.trips, h.queue, ?_, h.ports.trans hports, h.databits.trans hdatabits, h.lines.trans hlines,
    h.read_index.trans hread, h.cur_frame, h.ack_pending.trans hack⟩
  rw [h.sent, State.roundTrip_tx_sent, List.append_assoc, List.replicate_succ]
  rfl

/-! ### All of them -/

/-- The round trips that are left, each with its batch, run to `Playing`. -/
theorem core_run_roundTrips {f : List Byte} {batches rest : List (List Byte)} {s : State} (h : s.AtRoundTrip (f :: (batches ++ rest)))
    (htrips : s.load_trips.toNat = batches.length + 1) (hfit : ∀ g ∈ f :: batches, g.length ≤ 64) :
    ∃ t, Sys2Proof.core.run (2 * (batches.length + 1)) s = .next t ∧ LoadDone s t (batches.length + 1) rest := by
  induction batches generalizing f s with
  | nil =>
    have hlast : s.load_trips = 1 := BitVec.eq_of_toNat_eq htrips
    exact ⟨_, core_run_roundTrip 0 h (hfit f List.mem_cons_self), h.last hlast⟩
  | cons g batches ih =>
    have hmore : s.load_trips ≠ 1 := fun hlast => by simp [hlast] at htrips
    have htrips' : (s.roundTrip f).load_trips.toNat = batches.length + 1 := by
      rw [State.roundTrip_load_trips, BitVec.toNat_sub_of_le (by rw [BitVec.le_def, htrips]; simp), htrips]
      rfl
    obtain ⟨t, hrun, hdone⟩ := ih (h.next hmore) htrips' fun b hb => hfit b (List.mem_cons_of_mem f hb)
    refine ⟨t, ?_, hdone.cons⟩
    rw [List.length_cons, Nat.mul_succ, core_run_roundTrip _ h (hfit f List.mem_cons_self), hrun]

/-- The step that accepts a Load frame leaves the Engine at the first of the Load's round trips. -/
theorem step_load_frame {s : State} {p d l ut : Byte} {extra : List Byte} {q : List (List Byte)} (hagenda : s.agenda = [])
    (hphase : s.phase = .cmd) (hmode : s.mode = .idle) (hc : s.cfg = true) (hready : s.tx_ready = true) (hhold : s.rx_hold = false)
    (hp : p.toNat = 1 ∨ p.toNat = 2) (hd : d.toNat = 1 ∨ d.toNat = 2) (hl : l.toNat = 1 ∨ l.toNat = 2) (hextra : extra.length ≤ 59)
    (hqueue : s.rx_queue = (Op.load.code :: p :: d :: l :: ut :: extra) :: q) :
    ∃ u, step s = .next u ∧ u.AtRoundTrip q ∧ u.load_trips.toNat = 4 * (p.toNat * d.toNat * l.toNat) ∧
      u.ports.toNat = p.toNat ∧ u.databits.toNat = d.toNat ∧ u.lines.toNat = l.toNat ∧ u.tx_sent = s.tx_sent ∧
      u.read_index = s.read_index ∧ u.ack_pending = s.ack_pending := by
  have hoffer : s.rxFrame? = some (Op.load.code :: p :: d :: l :: ut :: extra) := by simp [State.rxFrame?, hhold, hqueue]
  have hcmd := step_cmd (o := .load) (State.nextEvent_nil hagenda) hphase hc hoffer (Nat.add_le_add_right hextra 4) rfl
  refine ⟨_, hcmd.trans (exec_load_accepted ut hmode hp hd hl), ⟨hagenda, rfl, hready, hhold, congrArg List.tail hqueue⟩, ?_⟩
  obtain ⟨hports, hdatabits, hlines, -, htrips, -⟩ := State.acceptLoad_layout p d l ut _ hp hd hl
  exact ⟨htrips, hports, hdatabits, hlines, rfl, rfl, rfl⟩

/-- Settles O60: the Load frame sets as many round trips as batches wait, and `core_run_roundTrips` is the rest of the run. -/
theorem loadRunsToPlaying : Obligations.LoadRunsToPlaying := by
  intro s p d l ut extra batches rest hagenda hphase hmode hc hready hhold hp hd hl hextra hqueue hlen hfit
  rw [mem_one_two] at hp hd hl
  obtain ⟨u, hload, hu, htrips, hports, hdatabits, hlines, hsent, hread, hack⟩ :=
    step_load_frame hagenda hphase hmode hc hready hhold hp hd hl hextra hqueue
  rw [← hlen] at htrips
  cases batches with
  | nil =>
    have hpos : 0 < p.toNat * d.toNat * l.toNat := Nat.mul_pos (Nat.mul_pos (by omega) (by omega)) (by omega)
    rw [List.length_nil] at hlen
    omega
  | cons f batches =>
    obtain ⟨t, hrun, hdone⟩ := core_run_roundTrips hu htrips hfit
    refine ⟨t, ?_, hdone.mode, hdone.phase, hdone.trips, hdone.queue, hsent ▸ hdone.sent, ?_, ?_, ?_, hdone.read_index.trans hread,
      hdone.cur_frame, hdone.ack_pending.trans hack⟩
    · rw [Nat.add_comm, core_run_succ _ hload]
      exact hrun
    · rw [hdone.ports, hports]
    · rw [hdone.databits, hdatabits]
    · rw [hdone.lines, hlines]

end Sys2Proof.Machine
end
